-- ==== Sys2Proof/Word.lean ====
section
/-! DEFINITION. The plain value types of the block: bytes, frames, operand words and colours.
A `Num` of the spec (R9) is a rational number `ℚ`: the model takes the reference instantiation EXACT
(log entry 3). -/

namespace Sys2Proof

/-- A byte, 8 bits (R8). -/
abbrev Byte := BitVec 8

/-- A command or response frame: its bytes in increasing offset (R82, R90). -/
abbrev Frame := List Byte

/-- The 32-bit pattern of a `num` operand, signed Q16.16; its value is `Machine.numOf` (R84). -/
abbrev Q16 := BitVec 32

/-- A Color: four unsigned channels (R23). A channel is a number, not a bit pattern: channel arithmetic
never wraps (R110). That no channel exceeds CMAX is `Color.fits`. -/
structure Color where
  r : Nat
  g : Nat
  b : Nat
  w : Nat
deriving DecidableEq, Repr

/-- The colour (0, 0, 0, 0) that CLEAR leaves (R132). -/
def Color.black : Color := ⟨0, 0, 0, 0⟩

/-- The palette `PAL[0]` (primary), `PAL[1]` (secondary), `PAL[2]` (fill) (R26). -/
structure Palette where
  primary : Color
  secondary : Color
  fill : Color
deriving DecidableEq, Repr

/-- The thirteen configuration registers, by name (R41). -/
structure Cfg where
  nrings : Nat
  n0 : Nat
  n1 : Nat
  /-- bit 0 AUTO_RESET, bit 1 AUTO_ADVANCE, bit 2 ALLOW_LOWER (R42) -/
  flags : BitVec 3
  resetTime : ℚ
  startAccel : ℚ
  startTargetSpeed : ℚ
  advanceTime : ℚ
  windupAccel : ℚ
  windupTargetSpeed : ℚ
  fillRate : ℚ
  fadeTime : ℚ
  blinkRate : ℚ
deriving DecidableEq, Repr

end Sys2Proof
end

