-- ==== Sys2Proof/Config.lean ====
section
/-! DEFINITION. What is fixed for one block, and the free values.
The open parameters of R6 are gathered in `Build`. A `Build` is an argument of the model: `State` carries one,
no step changes it, and a statement about every state is a statement about every build (log entry 1). -/

namespace Sys2Proof

/-- The width `CW` of a channel: 8 or 16 bits, uniform across a build (R6, R23). -/
inductive ChannelWidth where
  | w8
  | w16
deriving DecidableEq, Repr

/-- `CB = CW / 8`, the bytes of one channel (R84). -/
def ChannelWidth.cb : ChannelWidth → Nat
  | .w8 => 1
  | .w16 => 2

/-- `CW` itself, the bits of one channel (R6). -/
def ChannelWidth.bits : ChannelWidth → Nat
  | .w8 => 8
  | .w16 => 16

/-- `CMAX = 2^CW - 1` (R6). -/
def ChannelWidth.cmax : ChannelWidth → Nat
  | .w8 => 255
  | .w16 => 65535

/-- Every channel of the colour is a value `0 .. CMAX` (R23). -/
abbrev Color.fits (cw : ChannelWidth) (c : Color) : Prop :=
  c.r ≤ cw.cmax ∧ c.g ≤ cw.cmax ∧ c.b ≤ cw.cmax ∧ c.w ≤ cw.cmax

/-- `DEFAULTS`: the reset values of the configuration registers and of the palette (R6, R44). -/
structure Defaults where
  cfg : Cfg
  pal : Palette
deriving DecidableEq, Repr

/-- The open parameters of R6 other than `NUMERICS`. -/
structure Build where
  cw : ChannelWidth
  nmax : Nat
  defaults : Defaults
  /-- the 8-byte identifier of a packet, padded with NUL when shorter (R201) -/
  pktId : List Byte
  pktOpcode : BitVec 16
  pktProtVer : BitVec 16
deriving DecidableEq, Repr

/-- The ring layout registers hold legal values (R41, R44). -/
abbrev Cfg.legal (nmax : Nat) (c : Cfg) : Prop :=
  (c.nrings = 1 ∨ c.nrings = 2) ∧ (1 ≤ c.n0 ∧ c.n0 ≤ nmax) ∧ (1 ≤ c.n1 ∧ c.n1 ≤ nmax)

/-- Every entry of the palette is a Color of the build (R23). -/
abbrev Palette.fits (cw : ChannelWidth) (p : Palette) : Prop :=
  p.primary.fits cw ∧ p.secondary.fits cw ∧ p.fill.fits cw

/-- What R6 and R44 ask of the open parameters: `1 <= NMAX <= 65535`, and legal defaults. -/
abbrev Build.legal (b : Build) : Prop :=
  (1 ≤ b.nmax ∧ b.nmax ≤ 65535) ∧ b.defaults.cfg.legal b.nmax ∧ b.defaults.pal.fits b.cw

/-- DESIGN CHOICE (log entry 2): the `DEFAULTS` of the block that `State.reset` is. R44 gives none. -/
def Config.defaults : Defaults where
  cfg :=
    { nrings := 1, n0 := 1, n1 := 1, flags := 0#3, resetTime := 0, startAccel := 0, startTargetSpeed := 0,
      advanceTime := 0, windupAccel := 0, windupTargetSpeed := 0, fillRate := 0, fadeTime := 0, blinkRate := 0 }
  pal := ⟨Color.black, Color.black, Color.black⟩

/-- DESIGN CHOICE (log entry 1): the build of the block that `State.reset` is. `CW = 8` is the width of the spec's
vectors (R6); the packet constants are the defaults of R203, which the spec marks as general knowledge. -/
def Config.build : Build where
  cw := .w8
  nmax := 65535
  defaults := Config.defaults
  pktId := [0x41#8, 0x72#8, 0x74#8, 0x2D#8, 0x4E#8, 0x65#8, 0x74#8, 0x00#8]
  pktOpcode := 0x5000#16
  pktProtVer := 14#16

/-- FREE VALUE (log entry 4): the sine at the phases where R10 fixes no value. -/
opaque Config.sinRaw : ℚ → ℚ

/-- FREE VALUE (log entry 7): which port is taken when both have a frame waiting, per command taken; true is port C.
R71 leaves the order open. -/
opaque Config.arbiter : Nat → Bool

/-- FREE VALUE (log entry 24): what the listener makes of a `Palette` line with a channel above CMAX, nothing where it
refuses the line. R188 and N12 leave open whether it refuses, saturates or truncates. -/
opaque Config.listenerPalette : ChannelWidth → Palette → Option Palette

end Sys2Proof
end

