-- ==== Sys2Proof/Syntax.lean ====
section
/-! DEFINITION. The 18 commands of R81, one constructor each, with the operand types of R84. -/

namespace Sys2Proof

/-- A command (R80, R81). A `num` operand is its 32-bit pattern, valued by `Machine.numOf`. A `flag` operand stays a byte:
a byte other than 0 and 1 is an operand that the command itself refuses, after the port and the state were checked
(R84, R258). -/
inductive Instr where
  | nop
  | clear
  | arc (angleFrom angleTo : Q16) (clockwise : Byte) (color : Color)
  | fill (ratio : Q16) (color : Color)
  | decay (multiplier addition : Q16)
  | a2l (ring : Byte) (angle : Q16)
  | rdpix (ring : Byte) (idx : BitVec 16)
  | wrpix (ring : Byte) (idx : BitVec 16) (color : Color)
  | tick (dt : Q16)
  | advance (target : Byte) (force : Byte)
  | setpulse (on : Byte)
  | setpal (primary secondary fill : Color)
  | rdstat
  | encode (ring : Byte) (start count : BitVec 16) (pad uni net : Byte)
  | rdpkt (off : BitVec 16)
  | cfgwr (reg : Byte) (value : BitVec 32)
  | cfgrd (reg : Byte)
  | init
deriving DecidableEq, Repr

end Sys2Proof
end

