-- ==== Sys2Proof/WellFormed.lean ====
section
/-! DEFINITION. Which commands a frame can carry: every colour operand has channels of CW bits. The other operand
types hold exactly the values of their encodings (R84). -/

namespace Sys2Proof

/-- The command's colour operands are Colors of the build: no channel above CMAX (R23, R84; U27). -/
def Instr.wf (cw : ChannelWidth) : Instr → Bool
  | .arc _ _ _ c => decide (c.fits cw)
  | .fill _ c => decide (c.fits cw)
  | .wrpix _ _ c => decide (c.fits cw)
  | .setpal p s f => decide (p.fits cw) && decide (s.fits cw) && decide (f.fits cw)
  | .nop | .clear | .decay _ _ | .a2l _ _ | .rdpix _ _ | .tick _ | .advance _ _ | .setpulse _ | .rdstat
  | .encode _ _ _ _ _ _ | .rdpkt _ | .cfgwr _ _ | .cfgrd _ | .init => true

end Sys2Proof
end

