-- ==== Sys2Proof/Decode.lean ====
section
/-! DEFINITION. Command frames: the opcode map (R86), the formats (R87), the decoder, and after it the encoder.
Byte-order helpers of both directions stand here (R66, R84). -/

namespace Sys2Proof

/-! ### The opcode map and the formats -/

/-- The opcodes by name (R86). -/
inductive Opcode where
  | nop | clear | arc | fill | decay | a2l | rdpix | wrpix | tick | advance | setpulse | setpal | rdstat
  | encode | rdpkt | cfgwr | cfgrd | init
deriving DecidableEq, Repr

/-- The formats of R87. -/
inductive Format where
  | z | f | b | h | n | bf | bh | bn | bw | nn | nc | bhc | nnfc | ccc | enc
deriving DecidableEq, Repr

/-- Byte 0 of the command's frame (R86). -/
def Opcode.byte : Opcode → Byte
  | .nop => 0x00#8
  | .clear => 0x01#8
  | .arc => 0x02#8
  | .fill => 0x03#8
  | .decay => 0x04#8
  | .a2l => 0x05#8
  | .rdpix => 0x06#8
  | .wrpix => 0x07#8
  | .tick => 0x10#8
  | .advance => 0x11#8
  | .setpulse => 0x12#8
  | .setpal => 0x13#8
  | .rdstat => 0x14#8
  | .encode => 0x20#8
  | .rdpkt => 0x21#8
  | .cfgwr => 0x30#8
  | .cfgrd => 0x31#8
  | .init => 0x32#8

/-- The rows of R86. -/
def Opcode.all : List Opcode :=
  [.nop, .clear, .arc, .fill, .decay, .a2l, .rdpix, .wrpix, .tick, .advance, .setpulse, .setpal, .rdstat,
   .encode, .rdpkt, .cfgwr, .cfgrd, .init]

/-- The opcode of a first byte: all eight bits count (R86); none for a byte of R95. -/
def Opcode.ofByte (b : Byte) : Option Opcode :=
  Opcode.all.find? (fun o => o.byte = b)

/-- The format of each opcode (R86). -/
def Opcode.format : Opcode → Format
  | .nop | .clear | .rdstat | .init => .z
  | .arc => .nnfc
  | .fill => .nc
  | .decay => .nn
  | .a2l => .bn
  | .rdpix => .bh
  | .wrpix => .bhc
  | .tick => .n
  | .advance => .bf
  | .setpulse => .f
  | .setpal => .ccc
  | .encode => .enc
  | .rdpkt => .h
  | .cfgwr => .bw
  | .cfgrd => .b

/-- The frame length of a format, by the bytes of a channel (R87). -/
def Format.length (cb : Nat) : Format → Nat
  | .z => 1
  | .f => 2
  | .b => 2
  | .h => 3
  | .n => 5
  | .bf => 3
  | .bh => 4
  | .bn => 6
  | .bw => 6
  | .nn => 9
  | .nc => 5 + 4 * cb
  | .bhc => 4 + 4 * cb
  | .nnfc => 10 + 4 * cb
  | .ccc => 1 + 12 * cb
  | .enc => 9

/-- The frame length the opcode and `CW` fix (R82, R87). -/
def Opcode.frameLength (cw : ChannelWidth) (o : Opcode) : Nat :=
  o.format.length cw.cb

/-! ### Reading operands -/

/-- The byte at an offset of a frame. -/
def byteAt (f : Frame) (o : Nat) : Byte := f.getD o 0#8

/-- A two-byte operand, least significant byte first (R84). -/
def u16At (f : Frame) (o : Nat) : BitVec 16 := byteAt f (o + 1) ++ byteAt f o

/-- A four-byte operand, least significant byte first (R84). -/
def u32At (f : Frame) (o : Nat) : BitVec 32 := u16At f (o + 2) ++ u16At f o

/-- One channel of a `col` operand, CB bytes, least significant byte first (R84). -/
def channelAt (cw : ChannelWidth) (f : Frame) (o : Nat) : Nat :=
  match cw with
  | .w8 => (byteAt f o).toNat
  | .w16 => (u16At f o).toNat

/-- A `col` operand: channels R, G, B, W in that order (R66, R84). -/
def colAt (cw : ChannelWidth) (f : Frame) (o : Nat) : Color :=
  ⟨channelAt cw f o, channelAt cw f (o + cw.cb), channelAt cw f (o + 2 * cw.cb), channelAt cw f (o + 3 * cw.cb)⟩

/-- The command of an opcode with the operands a frame carries at the offsets of R87. -/
def Opcode.operands (cw : ChannelWidth) (f : Frame) : Opcode → Instr
  | .nop => .nop
  | .clear => .clear
  | .arc => .arc (u32At f 1) (u32At f 5) (byteAt f 9) (colAt cw f 10)
  | .fill => .fill (u32At f 1) (colAt cw f 5)
  | .decay => .decay (u32At f 1) (u32At f 5)
  | .a2l => .a2l (byteAt f 1) (u32At f 2)
  | .rdpix => .rdpix (byteAt f 1) (u16At f 2)
  | .wrpix => .wrpix (byteAt f 1) (u16At f 2) (colAt cw f 4)
  | .tick => .tick (u32At f 1)
  | .advance => .advance (byteAt f 1) (byteAt f 2)
  | .setpulse => .setpulse (byteAt f 1)
  | .setpal => .setpal (colAt cw f 1) (colAt cw f (1 + 4 * cw.cb)) (colAt cw f (1 + 8 * cw.cb))
  | .rdstat => .rdstat
  | .encode => .encode (byteAt f 1) (u16At f 2) (u16At f 4) (byteAt f 6) (byteAt f 7) (byteAt f 8)
  | .rdpkt => .rdpkt (u16At f 1)
  | .cfgwr => .cfgwr (byteAt f 1) (u32At f 2)
  | .cfgrd => .cfgrd (byteAt f 1)
  | .init => .init

/-! ### The decoder -/

/-- Why a frame is malformed (R83, R95). -/
inductive DecodeError where
  /-- No byte at all (DEDUCED, log entry 12). -/
  | emptyFrame
  /-- The first byte is not an opcode of R86 (R95). -/
  | unknownOpcode (b : Byte)
  /-- The length is not the one R87 gives for the opcode (R83). -/
  | wrongLength (o : Opcode) (length : Nat)
deriving DecidableEq, Repr

/-- Decode a command frame (R82, R83): the opcode, the length, then the operands. -/
def decode (cw : ChannelWidth) (f : Frame) : Except DecodeError Instr :=
  match f with
  | [] => .error .emptyFrame
  | b :: _ =>
    match Opcode.ofByte b with
    | none => .error (.unknownOpcode b)
    | some o =>
      if f.length = o.frameLength cw then .ok (o.operands cw f) else .error (.wrongLength o f.length)

/-! ### The encoder -/

/-- The bytes of a 16-bit value, least significant first (R84). -/
def u16Bytes (v : BitVec 16) : Frame := [v.extractLsb' 0 8, v.extractLsb' 8 8]

/-- The bytes of a 32-bit value, least significant first (R84). -/
def u32Bytes (v : BitVec 32) : Frame :=
  [v.extractLsb' 0 8, v.extractLsb' 8 8, v.extractLsb' 16 8, v.extractLsb' 24 8]

/-- The CB bytes of one channel, least significant first (R84). -/
def channelBytes (cw : ChannelWidth) (v : Nat) : Frame :=
  match cw with
  | .w8 => [BitVec.ofNat 8 v]
  | .w16 => u16Bytes (BitVec.ofNat 16 v)

/-- The bytes of a Color: R, G, B, W (R84). -/
def colBytes (cw : ChannelWidth) (c : Color) : Frame :=
  channelBytes cw c.r ++ channelBytes cw c.g ++ channelBytes cw c.b ++ channelBytes cw c.w

/-- The opcode a command is sent under (R86). -/
def Instr.opcode : Instr → Opcode
  | .nop => .nop
  | .clear => .clear
  | .arc _ _ _ _ => .arc
  | .fill _ _ => .fill
  | .decay _ _ => .decay
  | .a2l _ _ => .a2l
  | .rdpix _ _ => .rdpix
  | .wrpix _ _ _ => .wrpix
  | .tick _ => .tick
  | .advance _ _ => .advance
  | .setpulse _ => .setpulse
  | .setpal _ _ _ => .setpal
  | .rdstat => .rdstat
  | .encode _ _ _ _ _ _ => .encode
  | .rdpkt _ => .rdpkt
  | .cfgwr _ _ => .cfgwr
  | .cfgrd _ => .cfgrd
  | .init => .init

/-- The operand bytes of a command, in the order of R81 with no padding (R82). -/
def Instr.operandBytes (cw : ChannelWidth) : Instr → Frame
  | .nop => []
  | .clear => []
  | .arc aF aT k c => u32Bytes aF ++ u32Bytes aT ++ [k] ++ colBytes cw c
  | .fill r c => u32Bytes r ++ colBytes cw c
  | .decay m a => u32Bytes m ++ u32Bytes a
  | .a2l k a => [k] ++ u32Bytes a
  | .rdpix k i => [k] ++ u16Bytes i
  | .wrpix k i c => [k] ++ u16Bytes i ++ colBytes cw c
  | .tick dt => u32Bytes dt
  | .advance t k => [t, k]
  | .setpulse on => [on]
  | .setpal p s f => colBytes cw p ++ colBytes cw s ++ colBytes cw f
  | .rdstat => []
  | .encode k st ct pad u n => [k] ++ u16Bytes st ++ u16Bytes ct ++ [pad, u, n]
  | .rdpkt o => u16Bytes o
  | .cfgwr k v => [k] ++ u32Bytes v
  | .cfgrd k => [k]
  | .init => []

/-- The frame of a command: the opcode byte, then the operands (R82). -/
def encode (cw : ChannelWidth) (i : Instr) : Frame :=
  i.opcode.byte :: i.operandBytes cw

/-! ### A word of the opcode table as a frame -/

/-- The low `k` bytes of a word, the least significant first. -/
def wordBytes (k w : Nat) : Frame :=
  (List.range k).map (fun j => BitVec.ofNat 8 (w / 2 ^ (8 * j)))

/-- The frame a table word stands for (log entry 11): its first byte is the opcode; every operand byte that the word
does not reach is 0; a word with bits beyond the opcode's frame length keeps its own length. -/
def wordFrame (cw : ChannelWidth) (nbits w : Nat) : Frame :=
  let len := match Opcode.ofByte (BitVec.ofNat 8 w) with
    | none => 1
    | some o => o.frameLength cw
  wordBytes (if w < 2 ^ (8 * len) then len else (nbits + 7) / 8) w

/-- The command the decoder reads from a table word, for the channel width of `Config.build`. -/
def decodeTableWord (nbits w : Nat) : Option Instr :=
  (decode Config.build.cw (wordFrame Config.build.cw nbits w)).toOption

end Sys2Proof
end

