-- ==== Sys2Proof/Machine/Params.lean ====
section
/-! DEFINITION. The numeric literals of R7 and the named parameters to which R6 gives a value. -/

namespace Sys2Proof.Machine

/-- Trail decay multiplier of Starting, Idle and Windup (R7). -/
def kTrail : ℚ := 4 / 5

/-- Decay multiplier of Fade (R7). -/
def kFade : ℚ := 97 / 100

/-- The decay addition of every stage (R7). -/
def stageDecayAddition : ℚ := 0

/-- `EDGE_WEIGHT`: the weight of an arc's boundary pixel, in both directions (R6, R123). -/
def edgeWeight (_clockwise : Bool) (f : ℚ) : ℚ := f / 2

/-- `PULSE_FILL`: FILL's colour is pulse-scaled too (R6, R118). -/
def pulseFill : Bool := true

/-- `GAP`: the literal signed difference of the two positions (R6, R166). -/
def gap (p1 p2 : ℚ) : ℚ := p1 - p2

/-- The collision gap threshold, in degrees (R7, R166). -/
def gapLimit : ℚ := 5

/-- The collision zone: two open intervals (R7, R166). -/
abbrev inCollisionZone (p : ℚ) : Prop := (30 < p ∧ p < 150) ∨ (210 < p ∧ p < 330)

/-- The divisor of the second particle's speed at entry to Windup (R7, R181). -/
def secondSpeedDivisor : ℚ := 2

/-- The fill-ratio limit (R7, R168). -/
def fillLimit : ℚ := 1

/-- `NARROW`: the low 8 bits of a channel (R6, R207). -/
def narrow (v : Nat) : Byte := BitVec.ofNat 8 (v % 256)

/-- `START_POS0` (R6, R181). -/
def startPos0 : ℚ := 0

/-- `START_SPEED0` (R6, R181). -/
def startSpeed0 : ℚ := 0

/-- `WINDUP_P2_OFFSET` (R6, R181). -/
def windupP2Offset : ℚ := 0

end Sys2Proof.Machine
end

