-- ==== Sys2Proof/Machine/Arith.lean ====
section
/-! DEFINITION. The derived numeric functions of R11, the channel arithmetic of R110, the sine of R10 and the pulse
value of R29. -/

namespace Sys2Proof.Machine

/-- `frac(x) = x - floor(x)` (R11). -/
def frac (x : ℚ) : ℚ := x - (⌊x⌋ : ℤ)

/-- `norm360(a) = a - 360 * floor(a / 360)` (R11). -/
def norm360 (a : ℚ) : ℚ := a - 360 * (⌊a / 360⌋ : ℤ)

/-- `sat(v) = min(max(v, 0), CMAX)` (R11). -/
def sat (cw : ChannelWidth) (v : ℤ) : Nat := (min (max v 0) (cw.cmax : ℤ)).toNat

/-- `chan(x) = sat(floor(x))` (R11, R110). -/
def chan (cw : ChannelWidth) (x : ℚ) : Nat := sat cw ⌊x⌋

/-- `scale(c, r)`, each channel on its own (R11, R111). -/
def scale (cw : ChannelWidth) (c : Color) (ratio : ℚ) : Color :=
  ⟨chan cw (c.r * ratio), chan cw (c.g * ratio), chan cw (c.b * ratio), chan cw (c.w * ratio)⟩

/-- `SINPI` (R10): period 2, the four values that R10 fixes, elsewhere a free value in `[-1, 1]` (log entry 4). -/
def sinpi (h : ℚ) : ℚ :=
  let x := h - 2 * (⌊h / 2⌋ : ℤ)
  if x = 0 then 0
  else if x = 1 / 2 then 1
  else if x = 1 then 0
  else if x = 3 / 2 then -1
  else max (-1) (min 1 (Config.sinRaw x))

/-- The pulse value `PV` at a phase (R29, R118). -/
def pulseValue (h : ℚ) : ℚ := (sinpi h + 1) / 2

end Sys2Proof.Machine
end

