-- ==== Sys2Proof/Machine/State.lean ====
section
/-! DEFINITION. The state of the block (R20), the reasons a step can stop, and the state after reset (R280). -/

namespace Sys2Proof.Machine

/-- The two command ports (R262). -/
inductive Port where
  /-- the frame loop's port -/
  | F
  /-- the control collaborator's port -/
  | C
deriving DecidableEq, Repr

/-- The six stages (R30). -/
inductive Stage where
  | dark | starting | idle | windup | explosion | fade
deriving DecidableEq, Repr

/-- Variant Dark (R32). -/
structure DarkData where
  elapsedTime : ℚ
  resetTime : ℚ
deriving DecidableEq, Repr

/-- Variant Starting (R33). -/
structure StartingData where
  elapsedTime : ℚ
  particlePosition : ℚ
  particleSpeed : ℚ
  accel : ℚ
  targetSpeed : ℚ
deriving DecidableEq, Repr

/-- Variant Idle (R34). -/
structure IdleData where
  elapsedTime : ℚ
  particlePosition : ℚ
  particleSpeed : ℚ
  advanceTime : ℚ
deriving DecidableEq, Repr

/-- Variant Windup (R35). -/
structure WindupData where
  elapsedTime : ℚ
  firstParticlePosition : ℚ
  firstParticleSpeed : ℚ
  secondParticlePosition : ℚ
  secondParticleSpeed : ℚ
  accel : ℚ
  targetSpeed : ℚ
deriving DecidableEq, Repr

/-- Variant Explosion (R36). -/
structure ExplosionData where
  elapsedTime : ℚ
  fillRatio : ℚ
  fillRate : ℚ
deriving DecidableEq, Repr

/-- Variant Fade (R37). -/
structure FadeData where
  elapsedTime : ℚ
  targetTime : ℚ
deriving DecidableEq, Repr

/-- StageData: exactly one active payload (R31). -/
inductive StageData where
  | dark (d : DarkData)
  | starting (d : StartingData)
  | idle (d : IdleData)
  | windup (d : WindupData)
  | explosion (d : ExplosionData)
  | fade (d : FadeData)
deriving DecidableEq, Repr

/-- The stage of a StageData, `CUR.tag` (R31). -/
def StageData.tag : StageData → Stage
  | .dark _ => .dark
  | .starting _ => .starting
  | .idle _ => .idle
  | .windup _ => .windup
  | .explosion _ => .explosion
  | .fade _ => .fade

/-- The response codes (R91). -/
inductive RespCode where
  | ok | rejected | range | badOpc | badPort | badState
deriving DecidableEq, Repr

/-- The result of a command (R81), before its encoding (R85): a `unum` is the exact number. -/
inductive Result where
  | none
  | unum (x : ℚ)
  | col (c : Color)
  | u32 (v : BitVec 32)
  | u8 (v : Byte)
deriving DecidableEq, Repr

/-- One answer of the block: its code, the exact result, and the frame that the port carries (R90). -/
structure Response where
  code : RespCode
  result : Result
  frame : Frame
deriving DecidableEq, Repr

/-- A LOG event `(code, a, b)` (R47). -/
structure LogEvent where
  code : RespCode
  a : Nat
  b : Nat
deriving DecidableEq, Repr

/-- The five sticky bits of the status word (R46). -/
structure Sticky where
  errReject : Bool
  errRange : Bool
  errOpc : Bool
  errPort : Bool
  errState : Bool
deriving DecidableEq, Repr

/-- A memory: its cells in the canonical form `Memory.wf`, an unlisted address reading as the blank cell
(log entry 6). A ring's cell is a Color (R60), the packet buffer's cell is a byte, a `Host.Cell` (R61). -/
abbrev Memory (α : Type) := List (Nat × α)

/-- The packet buffer's memory is a list of the host's cells. -/
abbrev PacketMemory := List Host.Cell

/-- The machine: the state of the block (R20), then the model's own fields (INVENTORY.md). -/
structure State where
  /-- `INITED` (R21) -/
  inited : Bool
  /-- `NRINGS_L` (R22) -/
  nringsL : Nat
  /-- `N[0]` (R22) -/
  n0L : Nat
  /-- `N[1]` (R22) -/
  n1L : Nat
  /-- `RING[0]` (R24) -/
  ring0 : Memory Color
  /-- `RING[1]` (R24) -/
  ring1 : Memory Color
  /-- `PAL` (R26) -/
  pal : Palette
  /-- `PULSING` (R28) -/
  pulsing : Bool
  /-- `PULSE_H`, in half-turns (R29) -/
  pulseH : ℚ
  /-- `CUR` (R31) -/
  cur : StageData
  /-- `PEND` (R38) -/
  pend : StageData
  /-- `PEND_VALID` (R38) -/
  pendValid : Bool
  /-- `CFG` (R41) -/
  cfg : Cfg
  /-- bits 20:16 of the status word (R46) -/
  sticky : Sticky
  /-- `PKT` (R48) -/
  pkt : PacketMemory
  /-- the model's own: the arguments of the model, never changed (R6; log entry 1) -/
  build : Build
  /-- the model's own: the port of the command being run (R80; log entry 10) -/
  port : Port
  /-- the model's own: the frames waiting on port F, oldest first (log entry 7) -/
  inF : List Frame
  /-- the model's own: the frames waiting on port C, oldest first (log entry 7) -/
  inC : List Frame
  /-- the model's own: the responses sent on port F, oldest first (log entry 9) -/
  outF : List Response
  /-- the model's own: the responses sent on port C, oldest first (log entry 9) -/
  outC : List Response
  /-- the model's own: the LOG events emitted, oldest first (R47; log entry 9) -/
  log : List LogEvent
  /-- the model's own: the reset input is asserted (R280; log entry 8) -/
  resetIn : Bool
  /-- the model's own: how many commands were taken, the argument of `Config.arbiter` (log entry 7) -/
  turn : Nat
deriving DecidableEq, Repr

/-- Why the machine would stop for good: nothing. A refused command is a next state (R251), arithmetic never faults
and there is no access fault, alignment fault, illegal-state halt or watchdog (R257). No constructor, so no
meaning can fault. Safe: no behaviour of the block is cut off. -/
inductive Fault where
deriving DecidableEq, Repr

/-- Why the model would have no meaning for a command. -/
inductive Refusal where
  /-- Raised only by an arm of `exec` whose instruction has no meaning yet. Safe: nothing is claimed of it.
  No arm uses it. -/
  | notModelled (mnemonic : String)
deriving DecidableEq, Repr

/-- The state after reset of a block of the given build (R280). What R280 leaves unspecified and not readable
(`NRINGS_L`, `N`, `RING`, `PKT`, `CUR`, `PEND`) has the value of log entry 5. -/
def State.resetOf (b : Build) : State where
  inited := false
  nringsL := 0
  n0L := 0
  n1L := 0
  ring0 := []
  ring1 := []
  pal := b.defaults.pal
  pulsing := false
  pulseH := 0
  cur := .dark ⟨0, 0⟩
  pend := .dark ⟨0, 0⟩
  pendValid := false
  cfg := b.defaults.cfg
  sticky := ⟨false, false, false, false, false⟩
  pkt := []
  build := b
  port := .F
  inF := []
  inC := []
  outF := []
  outC := []
  log := []
  resetIn := false
  turn := 0

/-- The machine right after reset, for the build of `Config.build` (R280). -/
def State.reset : State := State.resetOf Config.build

end Sys2Proof.Machine
end

