-- ==== Sys2Proof/Machine/Flags.lean ====
section
/-! DEFINITION. Every flag: the stage numbers, the fields of CFG.FLAGS, the sticky bits and the status word. -/

namespace Sys2Proof.Machine

/-- The number of a stage (R30). -/
def Stage.num : Stage → Nat
  | .dark => 0
  | .starting => 1
  | .idle => 2
  | .windup => 3
  | .explosion => 4
  | .fade => 5

/-- The stage of a number; 6 and above name none (R30). -/
def Stage.ofNum : Nat → Option Stage
  | 0 => some .dark
  | 1 => some .starting
  | 2 => some .idle
  | 3 => some .windup
  | 4 => some .explosion
  | 5 => some .fade
  | _ => none

/-- `CFG.FLAGS.AUTO_RESET`, bit 0 (R42). -/
def autoReset (c : Cfg) : Bool := c.flags.getLsbD 0

/-- `CFG.FLAGS.AUTO_ADVANCE`, bit 1 (R42). -/
def autoAdvance (c : Cfg) : Bool := c.flags.getLsbD 1

/-- `CFG.FLAGS.ALLOW_LOWER`, bit 2 (R42). -/
def allowLower (c : Cfg) : Bool := c.flags.getLsbD 2

/-- The number of a response code (R91). -/
def RespCode.byte : RespCode → Byte
  | .ok => 0x00#8
  | .rejected => 0x01#8
  | .range => 0x02#8
  | .badOpc => 0x03#8
  | .badPort => 0x04#8
  | .badState => 0x05#8

/-- The sticky bit of a refusal is set, the others stay (R46, R91). -/
def Sticky.set (st : Sticky) : RespCode → Sticky
  | .ok => st
  | .rejected => { st with errReject := true }
  | .range => { st with errRange := true }
  | .badOpc => { st with errOpc := true }
  | .badPort => { st with errPort := true }
  | .badState => { st with errState := true }

/-- `STATUS.STAGE`: `CUR.tag`, 0 while not initialised (R46). -/
def State.statusStage (s : State) : BitVec 3 :=
  if s.inited then BitVec.ofNat 3 s.cur.tag.num else 0#3

/-- `STATUS.PEND_STAGE`: `PEND.tag` while a request is pending, else 0 (R46). -/
def State.statusPendStage (s : State) : BitVec 3 :=
  if s.pendValid then BitVec.ofNat 3 s.pend.tag.num else 0#3

/-- The status word, bit 31 first (R46). -/
def State.statusWord (s : State) : BitVec 32 :=
  0#11 ++ BitVec.ofBool s.sticky.errState ++ BitVec.ofBool s.sticky.errPort ++ BitVec.ofBool s.sticky.errOpc
    ++ BitVec.ofBool s.sticky.errRange ++ BitVec.ofBool s.sticky.errReject
    ++ 0#7 ++ BitVec.ofBool s.inited ++ BitVec.ofBool s.pulsing
    ++ s.statusPendStage ++ BitVec.ofBool s.pendValid ++ s.statusStage

end Sys2Proof.Machine
end

