-- ==== Sys2Proof/Machine/Ops.lean ====
section
/-! DEFINITION. The operations over memory, rings, responses and refusals that every meaning is written with.
Taking an exception is `State.raise`; the block has no return from one (R251: nothing is saved, control never leaves
the host's command stream). -/

namespace Sys2Proof.Machine

/-! ### Memory -/

/-- The canonical form: addresses strictly rising, no cell equal to what an unlisted address reads as. -/
abbrev Memory.wf {α : Type} (blank : α) (m : Memory α) : Prop :=
  m.Pairwise (fun x y => x.1 < y.1) ∧ ∀ c ∈ m, c.2 ≠ blank

/-- Every cell stands below the end of its space (R60, R61). -/
abbrev Memory.below {α : Type} (n : Nat) (m : Memory α) : Prop := ∀ c ∈ m, c.1 < n

/-- Read one cell; an unlisted address reads as the blank cell (log entry 6). -/
def Memory.read {α : Type} (blank : α) (m : Memory α) (a : Nat) : α :=
  match m with
  | [] => blank
  | (b, v) :: rest => if b = a then v else Memory.read blank rest a

/-- Put a cell in its place among rising addresses. -/
def Memory.place {α : Type} (a : Nat) (v : α) (m : Memory α) : Memory α :=
  match m with
  | [] => [(a, v)]
  | (b, w) :: rest => if a < b then (a, v) :: (b, w) :: rest else (b, w) :: Memory.place a v rest

/-- Write one cell, keeping the canonical form: writing the blank cell unlists the address. -/
def Memory.write {α : Type} [DecidableEq α] (blank : α) (m : Memory α) (a : Nat) (v : α) : Memory α :=
  let others := m.filter (fun c => decide (c.1 ≠ a))
  if v = blank then others else Memory.place a v others

/-- The memory of `n` cells in which cell `i` is `f i`. -/
def Memory.tabulate {α : Type} [DecidableEq α] (blank : α) (n : Nat) (f : Nat → α) : Memory α :=
  (List.range n).filterMap (fun i => if f i = blank then none else some (i, f i))

/-! ### The rings -/

/-- `N[k]` (R22). -/
def State.ringSize (s : State) (k : Nat) : Nat := if k = 0 then s.n0L else s.n1L

/-- `RING[k]` (R24). -/
def State.ring (s : State) (k : Nat) : Memory Color := if k = 0 then s.ring0 else s.ring1

/-- `RING[k][i]` (R12). -/
def State.pixel (s : State) (k i : Nat) : Color := Memory.read Color.black (s.ring k) i

/-- `RING[k] <- m`. -/
def State.setRing (s : State) (k : Nat) (m : Memory Color) : State :=
  { s with
    ring0 := if k = 0 then m else s.ring0
    ring1 := if k = 0 then s.ring1 else m }

/-- A draw operation acts on every ring `k < NRINGS_L`, each at its own size (R25). -/
def State.onRings (s : State) (f : Nat → Memory Color → Memory Color) : State :=
  { s with
    ring0 := if 0 < s.nringsL then f s.n0L s.ring0 else s.ring0
    ring1 := if 1 < s.nringsL then f s.n1L s.ring1 else s.ring1 }

/-- `PKT[o]` (R12). -/
def State.packetByte (s : State) (o : Nat) : Byte := Memory.read 0#8 s.pkt o

/-! ### Responses and refusals -/

/-- The Q16.16 pattern of a number: `floor(x * 65536)` modulo 2^32 (R85). -/
def q16Of (x : ℚ) : BitVec 32 := BitVec.ofInt 32 ⌊x * 65536⌋

/-- The encoding of a result (R85, R90). -/
def Result.bytes (cw : ChannelWidth) : Result → Frame
  | .none => []
  | .unum x => u32Bytes (q16Of x)
  | .col c => colBytes cw c
  | .u32 v => u32Bytes v
  | .u8 v => [v]

/-- The response of a code and a result: its frame is the code byte, then the encoded result (R90). -/
def Response.of (cw : ChannelWidth) (code : RespCode) (r : Result) : Response :=
  ⟨code, r, code.byte :: r.bytes cw⟩

/-- Answer the command on the port it came from (R90). -/
def State.respond (s : State) (code : RespCode) (r : Result) : State :=
  { s with
    outF := if s.port = .F then s.outF ++ [Response.of s.build.cw code r] else s.outF
    outC := if s.port = .C then s.outC ++ [Response.of s.build.cw code r] else s.outC }

/-- What a refusal carries: its code, and the LOG event where a rule says so (R13). -/
structure Raised where
  code : RespCode
  event : Option LogEvent
deriving DecidableEq, Repr

/-- `raise`: set the sticky bit of the code, emit the LOG event if there is one, answer with the code, and change
nothing else (R13, R251). -/
def State.raise (s : State) (e : Raised) : State :=
  { s with
    sticky := s.sticky.set e.code
    log := s.log ++ e.event.toList
    outF := if s.port = .F then s.outF ++ [Response.of s.build.cw e.code .none] else s.outF
    outC := if s.port = .C then s.outC ++ [Response.of s.build.cw e.code .none] else s.outC }

/-- What the body of a command gives: the state it leaves and its result, or the refusal it raises. Every check comes
before the first write (R13), so a refusal carries no state. -/
abbrev CmdResult := Except Raised (State × Result)

/-- A refusal without a LOG event. -/
def refuse (code : RespCode) : CmdResult := .error ⟨code, none⟩

/-- A command carried out with no result. -/
def done (s : State) : CmdResult := .ok (s, .none)

/-- End a command: answer `OK` with its result, or raise (R13). -/
def State.finish (s : State) : CmdResult → Host.Outcome State Fault Refusal
  | .ok (s', r) => .next (s'.respond .ok r)
  | .error e => .next (s.raise e)

/-- The checks common to all commands, in the order of R258: the port (R254, R262), then the state (R253). -/
def State.permit (s : State) (onPortC beforeInit : Bool) (body : CmdResult) : CmdResult :=
  if s.port = .C ∧ onPortC = false then refuse .badPort
  else if s.inited = false ∧ beforeInit = false then refuse .badState
  else body

end Sys2Proof.Machine
end

