-- ==== Sys2Proof/Machine/Operands.lean ====
section
/-! DEFINITION. Operand forms: flags, rings, angles as pixel indices, the pixels of an arc, configuration registers. -/

namespace Sys2Proof.Machine

/-- The value of a `num` operand: the pattern as a two's complement integer over 65536 (R84). -/
def numOf (v : Q16) : ℚ := (v.toInt : ℚ) / 65536

/-- A `flag` operand: 0 or 1, any other byte is none (R84). -/
def flagOf (b : Byte) : Option Bool :=
  if b = 0x00#8 then some false else if b = 0x01#8 then some true else none

/-- Check a `flag` operand before anything else of the command; a bad one raises `RANGE` (R255, R258). -/
def withFlag (b : Byte) (body : Bool → CmdResult) : CmdResult :=
  match flagOf b with
  | none => refuse .range
  | some v => body v

/-- Check a `ring` operand: one not below `NRINGS_L` raises `RANGE` (R96). -/
def State.withRing (s : State) (ring : Byte) (body : Nat → CmdResult) : CmdResult :=
  if s.nringsL ≤ ring.toNat then refuse .range else body ring.toNat

/-! ### Angles (R114) -/

/-- `led(k, a)` for a ring of `n` pixels (R114). -/
def led (n : Nat) (a : ℚ) : ℚ := (n : ℚ) / 360 * norm360 a

/-- The whole pixel index of an angle (R114). -/
def wholeIndex (n : Nat) (a : ℚ) : Nat := ⌊led n a⌋.toNat

/-- The sub-pixel part of an angle (R114). -/
def subPixel (n : Nat) (a : ℚ) : ℚ := frac (led n a)

/-! ### The pixels of an arc -/

/-- `lo, lo+1, ..., hi`. -/
def rising (lo hi : Nat) : List Nat := List.range' lo (hi + 1 - lo)

/-- The whole pixels of an arc in the order written (R121, R122). `iF`, `iT` are the whole indices of the normalised
angles `aF`, `aT`; the wrap is decided by the angles. -/
def wholes (n iF iT : Nat) (aF aT : ℚ) (clockwise : Bool) : List Nat :=
  if clockwise then
    if aF ≤ aT then rising iF iT else rising iF (n - 1) ++ rising 0 iT
  else
    if aT ≤ aF then (rising iT iF).reverse else (rising 0 iF).reverse ++ (rising iT (n - 1)).reverse

/-- The boundary pixel of an arc (R123, R112). -/
def boundary (n iT : Nat) (clockwise : Bool) : Nat :=
  (((iT : ℤ) + (if clockwise then 1 else -1)) % (n : ℤ)).toNat

/-! ### Configuration registers -/

/-- The configuration registers (R41). -/
inductive CfgReg where
  | nrings | n0 | n1 | flags | resetTime | startAccel | startTargetSpeed | advanceTime | windupAccel
  | windupTargetSpeed | fillRate | fadeTime | blinkRate
deriving DecidableEq, Repr

/-- The register of a number; every other number is reserved (R41). -/
def cfgRegOf (reg : Byte) : Option CfgReg :=
  match reg.toNat with
  | 0x00 => some .nrings
  | 0x01 => some .n0
  | 0x02 => some .n1
  | 0x03 => some .flags
  | 0x10 => some .resetTime
  | 0x11 => some .startAccel
  | 0x12 => some .startTargetSpeed
  | 0x13 => some .advanceTime
  | 0x14 => some .windupAccel
  | 0x15 => some .windupTargetSpeed
  | 0x16 => some .fillRate
  | 0x17 => some .fadeTime
  | 0x18 => some .blinkRate
  | _ => none

/-- The ring layout registers, writable only before INIT (R41). -/
def isLayoutReg : CfgReg → Bool
  | .nrings | .n0 | .n1 => true
  | .flags | .resetTime | .startAccel | .startTargetSpeed | .advanceTime | .windupAccel | .windupTargetSpeed
  | .fillRate | .fadeTime | .blinkRate => false

/-- Whether a value may be written to a register (R41). -/
def legalValue (nmax : Nat) (v : BitVec 32) : CfgReg → Bool
  | .nrings => decide (v.toNat = 1 ∨ v.toNat = 2)
  | .n0 | .n1 => decide (1 ≤ v.toNat ∧ v.toNat ≤ nmax)
  | .flags | .resetTime | .startAccel | .startTargetSpeed | .advanceTime | .windupAccel | .windupTargetSpeed
  | .fillRate | .fadeTime | .blinkRate => true

/-- Write a register by its type: an int as an unsigned number, FLAGS its low three bits, a num as Q16.16 (R235). -/
def writeReg (c : Cfg) (v : BitVec 32) : CfgReg → Cfg
  | .nrings => { c with nrings := v.toNat }
  | .n0 => { c with n0 := v.toNat }
  | .n1 => { c with n1 := v.toNat }
  | .flags => { c with flags := v.setWidth 3 }
  | .resetTime => { c with resetTime := numOf v }
  | .startAccel => { c with startAccel := numOf v }
  | .startTargetSpeed => { c with startTargetSpeed := numOf v }
  | .advanceTime => { c with advanceTime := numOf v }
  | .windupAccel => { c with windupAccel := numOf v }
  | .windupTargetSpeed => { c with windupTargetSpeed := numOf v }
  | .fillRate => { c with fillRate := numOf v }
  | .fadeTime => { c with fadeTime := numOf v }
  | .blinkRate => { c with blinkRate := numOf v }

/-- Read a register in the encoding of R85: an int zero-extended, a num as its Q16.16 pattern. -/
def readReg (c : Cfg) : CfgReg → BitVec 32
  | .nrings => BitVec.ofNat 32 c.nrings
  | .n0 => BitVec.ofNat 32 c.n0
  | .n1 => BitVec.ofNat 32 c.n1
  | .flags => c.flags.setWidth 32
  | .resetTime => q16Of c.resetTime
  | .startAccel => q16Of c.startAccel
  | .startTargetSpeed => q16Of c.startTargetSpeed
  | .advanceTime => q16Of c.advanceTime
  | .windupAccel => q16Of c.windupAccel
  | .windupTargetSpeed => q16Of c.windupTargetSpeed
  | .fillRate => q16Of c.fillRate
  | .fadeTime => q16Of c.fadeTime
  | .blinkRate => q16Of c.blinkRate

end Sys2Proof.Machine
end

