-- ==== Sys2Proof/Machine/Canvas.lean ====
section
/-! DEFINITION. The CANVAS family (40_canvas.md): the draw operations, which TICK runs too, and the commands. -/

namespace Sys2Proof.Machine

/-! ### Draw operations -/

/-- The effective colour of a draw operation (R118). -/
def State.effcol (s : State) (c : Color) : Color :=
  if s.pulsing then scale s.build.cw c (pulseValue s.pulseH) else c

/-- An arc on one ring of `n` pixels, in an effective colour: the whole pixels, then the boundary pixel (R120). -/
def paintArc (cw : ChannelWidth) (angleFrom angleTo : ℚ) (clockwise : Bool) (c : Color) (n : Nat)
    (m : Memory Color) : Memory Color :=
  let aF := norm360 angleFrom
  let aT := norm360 angleTo
  let iF := wholeIndex n aF
  let iT := wholeIndex n aT
  let f := subPixel n aT
  let painted := (wholes n iF iT aF aT clockwise).foldl (fun m i => Memory.write Color.black m i c) m
  Memory.write Color.black painted (boundary n iT clockwise) (scale cw c (edgeWeight clockwise f))

/-- The body of ARC (R120). -/
def State.drawArc (s : State) (angleFrom angleTo : ℚ) (clockwise : Bool) (color : Color) : State :=
  s.onRings (paintArc s.build.cw angleFrom angleTo clockwise (s.effcol color))

/-- One pixel of a rising-tide fill: each channel the greater of the two (R126). -/
def maxColor (p t : Color) : Color := ⟨max p.r t.r, max p.g t.g, max p.b t.b, max p.w t.w⟩

/-- The colour FILL raises the pixels to (R126, R118). -/
def State.fillColor (s : State) (ratio : ℚ) (color : Color) : Color :=
  scale s.build.cw (if pulseFill then s.effcol color else color) ratio

/-- The body of FILL, for a ratio in `[0, 1]` (R126). -/
def State.drawFill (s : State) (ratio : ℚ) (color : Color) : State :=
  s.onRings (fun n m =>
    Memory.tabulate Color.black n (fun i => maxColor (Memory.read Color.black m i) (s.fillColor ratio color)))

/-- One pixel of DECAY: the product and the sum exactly, then `chan` once (R130). -/
def decayColor (cw : ChannelWidth) (multiplier addition : ℚ) (p : Color) : Color :=
  ⟨chan cw (p.r * multiplier + addition), chan cw (p.g * multiplier + addition),
   chan cw (p.b * multiplier + addition), chan cw (p.w * multiplier + addition)⟩

/-- The body of DECAY (R130). -/
def State.drawDecay (s : State) (multiplier addition : ℚ) : State :=
  s.onRings (fun n m =>
    Memory.tabulate Color.black n (fun i => decayColor s.build.cw multiplier addition (Memory.read Color.black m i)))

/-- The body of CLEAR: every pixel of every ring becomes (0, 0, 0, 0) (R132). -/
def State.drawClear (s : State) : State :=
  s.onRings (fun n _ => Memory.tabulate Color.black n (fun _ => Color.black))

/-! ### Commands -/

/-- CLEAR (R132). -/
def execClear (s : State) : Host.Outcome State Fault Refusal :=
  s.finish (s.permit false false (done s.drawClear))

/-- ARC (R120). -/
def execArc (angleFrom angleTo : Q16) (clockwise : Byte) (color : Color) (s : State) :
    Host.Outcome State Fault Refusal :=
  s.finish (s.permit false false (withFlag clockwise fun k =>
    done (s.drawArc (numOf angleFrom) (numOf angleTo) k color)))

/-- FILL (R126): a ratio outside `[0, 1]` is refused. -/
def execFill (ratio : Q16) (color : Color) (s : State) : Host.Outcome State Fault Refusal :=
  s.finish (s.permit false false (
    if numOf ratio < 0 ∨ 1 < numOf ratio then refuse .range else done (s.drawFill (numOf ratio) color)))

/-- DECAY (R130): every pair of operands is accepted. -/
def execDecay (multiplier addition : Q16) (s : State) : Host.Outcome State Fault Refusal :=
  s.finish (s.permit false false (done (s.drawDecay (numOf multiplier) (numOf addition))))

/-- A2L (R115). -/
def execA2l (ring : Byte) (angle : Q16) (s : State) : Host.Outcome State Fault Refusal :=
  s.finish (s.permit false false (s.withRing ring fun k =>
    .ok (s, .unum (led (s.ringSize k) (numOf angle)))))

/-- RDPIX (R136). -/
def execRdpix (ring : Byte) (idx : BitVec 16) (s : State) : Host.Outcome State Fault Refusal :=
  s.finish (s.permit false false (s.withRing ring fun k =>
    if s.ringSize k ≤ idx.toNat then refuse .range else .ok (s, .col (s.pixel k idx.toNat))))

/-- WRPIX (R138): the colour is written as given, pulsing does not apply. -/
def execWrpix (ring : Byte) (idx : BitVec 16) (color : Color) (s : State) : Host.Outcome State Fault Refusal :=
  s.finish (s.permit false false (s.withRing ring fun k =>
    if s.ringSize k ≤ idx.toNat then refuse .range
    else done (s.setRing k (Memory.write Color.black (s.ring k) idx.toNat color))))

end Sys2Proof.Machine
end

