-- ==== Sys2Proof/Machine/Stage.lean ====
section
/-! DEFINITION. The STAGE family (41_stage_machine.md): construction and carry, requests, the tick with one update per
stage, and the commands. -/

namespace Sys2Proof.Machine

/-! ### Construction and requests -/

/-- The continuity fields, read from `CUR` at the time of the request (R182). -/
def carry : StageData → ℚ × ℚ
  | .starting d => (d.particlePosition, d.particleSpeed)
  | .idle d => (d.particlePosition, d.particleSpeed)
  | .windup d => (d.firstParticlePosition, d.firstParticleSpeed)
  | .dark _ => (0, 0)
  | .explosion _ => (0, 0)
  | .fade _ => (0, 0)

/-- The constructor `mk(target)`, from the configuration and the current stage data (R181, R43). -/
def mkStage (c : Cfg) (cur : StageData) : Stage → StageData
  | .dark => .dark { elapsedTime := 0, resetTime := c.resetTime }
  | .starting =>
    .starting { elapsedTime := 0, particlePosition := norm360 startPos0, particleSpeed := startSpeed0,
                accel := c.startAccel, targetSpeed := c.startTargetSpeed }
  | .idle =>
    .idle { elapsedTime := 0, particlePosition := (carry cur).1, particleSpeed := (carry cur).2,
            advanceTime := c.advanceTime }
  | .windup =>
    .windup { elapsedTime := 0,
              firstParticlePosition := (carry cur).1, firstParticleSpeed := (carry cur).2,
              secondParticlePosition := norm360 ((carry cur).1 + windupP2Offset),
              secondParticleSpeed := (carry cur).2 / secondSpeedDivisor,
              accel := c.windupAccel, targetSpeed := c.windupTargetSpeed }
  | .explosion => .explosion { elapsedTime := 0, fillRatio := 0, fillRate := c.fillRate }
  | .fade => .fade { elapsedTime := 0, targetTime := c.fadeTime }

/-- The guard of ADVANCE: true when the request is rejected (R180). -/
def State.guardRejects (s : State) (target : Stage) (force : Bool) : Bool :=
  !force && decide (target.num ≤ s.cur.tag.num) && !allowLower s.cfg

/-- Make a stage pending (R180). -/
def State.setPending (s : State) (target : Stage) : State :=
  { s with
    pend := mkStage s.cfg s.cur target
    pendValid := true }

/-- `request(target, force)` of an update rule, when its trigger has fired: the body of ADVANCE run inside the TICK
(R183). The guard never rejects a request that an update rule makes. -/
def State.request (s : State) (fires : Bool) (target : Stage) (force : Bool) : State :=
  { s with
    pend := if fires && !s.guardRejects target force then mkStage s.cfg s.cur target else s.pend
    pendValid := if fires && !s.guardRejects target force then true else s.pendValid }

/-! ### The tick -/

/-- Entry actions: only Dark has any, CLEAR and pulsing off (R156). -/
def State.enterStage (s : State) : Stage → State
  | .dark => { s.drawClear with pulsing := false }
  | .starting | .idle | .windup | .explosion | .fade => s

/-- The swap (R155). -/
def State.swap (s : State) : State :=
  if s.pendValid then { s with cur := s.pend, pendValid := false }.enterStage s.pend.tag else s

/-- The elapsed time of a stage data advances by `dt` (R158). -/
def StageData.age (dt : ℚ) : StageData → StageData
  | .dark d => .dark { d with elapsedTime := d.elapsedTime + dt }
  | .starting d => .starting { d with elapsedTime := d.elapsedTime + dt }
  | .idle d => .idle { d with elapsedTime := d.elapsedTime + dt }
  | .windup d => .windup { d with elapsedTime := d.elapsedTime + dt }
  | .explosion d => .explosion { d with elapsedTime := d.elapsedTime + dt }
  | .fade d => .fade { d with elapsedTime := d.elapsedTime + dt }

/-- Dark: nothing is drawn; the timer may request Starting (R161). -/
def State.updateDark (s : State) (d : DarkData) : State :=
  s.request (autoReset s.cfg && decide (d.resetTime < d.elapsedTime)) .starting false

/-- Starting (R162): decay, move with the speed held at the start of the tick, draw, then raise the speed; the trigger
tests the unclamped sum. -/
def State.updateStarting (s : State) (dt : ℚ) (d : StartingData) : State :=
  let new := norm360 (d.particlePosition + d.particleSpeed * dt)
  let sum := d.particleSpeed + d.accel * dt
  let s1 := (s.drawDecay kTrail stageDecayAddition).drawArc d.particlePosition new true s.pal.primary
  { s1 with cur := .starting { d with particlePosition := new, particleSpeed := min sum d.targetSpeed } }.request
    (decide (d.targetSpeed < sum)) .idle false

/-- Idle (R164): as Starting without the acceleration. -/
def State.updateIdle (s : State) (dt : ℚ) (d : IdleData) : State :=
  let new := norm360 (d.particlePosition + d.particleSpeed * dt)
  let s1 := (s.drawDecay kTrail stageDecayAddition).drawArc d.particlePosition new true s.pal.primary
  { s1 with cur := .idle { d with particlePosition := new } }.request
    (autoAdvance s.cfg && decide (d.advanceTime < d.elapsedTime)) .windup false

/-- The collision trigger, on the values the tick has just computed (R166). -/
def collision (d : WindupData) : Bool :=
  decide (d.secondParticleSpeed = d.targetSpeed)
    && decide (gap d.firstParticlePosition d.secondParticlePosition < gapLimit)
    && decide (inCollisionZone d.firstParticlePosition)

/-- Windup's kinematics: both positions with the old speeds, then both speeds ramped and clamped (R165). -/
def WindupData.move (d : WindupData) (dt : ℚ) : WindupData :=
  { d with
    firstParticlePosition := norm360 (d.firstParticlePosition + d.firstParticleSpeed * dt)
    secondParticlePosition := norm360 (d.secondParticlePosition - d.secondParticleSpeed * dt)
    firstParticleSpeed := min (d.firstParticleSpeed + d.accel * dt) d.targetSpeed
    secondParticleSpeed := min (d.secondParticleSpeed + d.accel * dt) d.targetSpeed }

/-- Windup (R165): the decay always, the two arcs unless the collision trigger fires. -/
def State.updateWindup (s : State) (dt : ℚ) (d : WindupData) : State :=
  let d' := d.move dt
  let s1 := { s.drawDecay kTrail stageDecayAddition with cur := .windup d' }
  if collision d' then s1.request true .explosion false
  else
    (s1.drawArc d.firstParticlePosition d'.firstParticlePosition true s.pal.primary).drawArc
      d.secondParticlePosition d'.secondParticlePosition false s.pal.secondary

/-- Explosion (R168): the stored and rendered ratio is clamped, the trigger tests the unclamped sum; no decay. -/
def State.updateExplosion (s : State) (dt : ℚ) (d : ExplosionData) : State :=
  let sum := d.fillRatio + d.fillRate * dt
  let ratio := min (max sum 0) fillLimit
  { s.drawFill ratio s.pal.fill with cur := .explosion { d with fillRatio := ratio } }.request
    (decide (fillLimit < sum)) .fade false

/-- Fade (R170): the request for Dark is forced. -/
def State.updateFade (s : State) (d : FadeData) : State :=
  (s.drawDecay kFade stageDecayAddition).request (decide (d.targetTime < d.elapsedTime)) .dark true

/-- The update rule of the current stage; exactly one runs (R159). -/
def State.update (s : State) (dt : ℚ) : State :=
  match s.cur with
  | .dark d => s.updateDark d
  | .starting d => s.updateStarting dt d
  | .idle d => s.updateIdle dt d
  | .windup d => s.updateWindup dt d
  | .explosion d => s.updateExplosion dt d
  | .fade d => s.updateFade d

/-- The pulse phase, then the elapsed time, advance (R157, R158). -/
def State.advanceTime (s : State) (dt : ℚ) : State :=
  { s with
    pulseH := s.pulseH + s.cfg.blinkRate * dt
    cur := s.cur.age dt }

/-- The body of TICK for a `dt` that is not negative: swap, phase, timer, update (R150). -/
def State.tick (s : State) (dt : ℚ) : State := (s.swap.advanceTime dt).update dt

/-! ### Commands -/

/-- TICK (R150): a negative `dt` is refused whole (R151). -/
def execTick (dt : Q16) (s : State) : Host.Outcome State Fault Refusal :=
  s.finish (s.permit false false (if numOf dt < 0 then refuse .range else done (s.tick (numOf dt))))

/-- ADVANCE (R180): out of range and rejected requests are logged. -/
def execAdvance (target force : Byte) (s : State) : Host.Outcome State Fault Refusal :=
  s.finish (s.permit true false (withFlag force fun k =>
    match Stage.ofNum target.toNat with
    | none => .error ⟨.range, some ⟨.range, target.toNat, s.cur.tag.num⟩⟩
    | some t =>
      if s.guardRejects t k then .error ⟨.rejected, some ⟨.rejected, target.toNat, s.cur.tag.num⟩⟩
      else done (s.setPending t)))

/-- SETPULSE (R184): the phase is not touched. -/
def execSetpulse (on : Byte) (s : State) : Host.Outcome State Fault Refusal :=
  s.finish (s.permit true false (withFlag on fun k => done { s with pulsing := k }))

/-- SETPAL (R185): accepted before INIT too. -/
def execSetpal (primary secondary fill : Color) (s : State) : Host.Outcome State Fault Refusal :=
  s.finish (s.permit true true (done { s with pal := ⟨primary, secondary, fill⟩ }))

end Sys2Proof.Machine
end

