-- ==== Sys2Proof/Machine/Wenc.lean ====
section
/-! DEFINITION. The WENC family (42_wire_encoder.md): the packet layout, ENCODE and RDPKT. -/

namespace Sys2Proof.Machine

/-- The length of a packet: 18 header bytes and 512 data bytes (R200). -/
def packetLength : Nat := 530

/-- The pixel slots of a packet (R68, R200). -/
def packetSlots : Nat := 128

/-- Byte `o` of the header (R201, R202). -/
def headerByte (b : Build) (uni net : Byte) (o : Nat) : Byte :=
  if o < 8 then b.pktId.getD o 0x00#8
  else if o = 8 then b.pktOpcode.extractLsb' 0 8
  else if o = 9 then b.pktOpcode.extractLsb' 8 8
  else if o = 10 then b.pktProtVer.extractLsb' 8 8
  else if o = 11 then b.pktProtVer.extractLsb' 0 8
  else if o = 14 then uni
  else if o = 15 then net
  else if o = 16 then 0x02#8
  else 0x00#8

/-- The narrowed byte of a pixel's channel, in the order R, G, B, W (R205, R207). -/
def channelByte (p : Color) (channel : Nat) : Byte :=
  narrow (if channel = 0 then p.r else if channel = 1 then p.g else if channel = 2 then p.b else p.w)

/-- The ring pixel that slot `j` of a segment of `m` pixels holds: forward for a positive count, else backward
(R211). -/
def segmentPixel (start m : Nat) (forward : Bool) (j : Nat) : Nat :=
  if forward then start + j else start + (m - 1) - j

/-- Byte `o` of the packet of a segment: the header, the segment's pixels after `pad` empty slots, and zero bytes
everywhere else (R201, R205, R210). -/
def segmentByte (b : Build) (ring : Memory Color) (start m : Nat) (forward : Bool) (pad : Nat) (uni net : Byte)
    (o : Nat) : Byte :=
  if o < 18 then headerByte b uni net o
  else
    let slot := (o - 18) / 4
    if pad ≤ slot ∧ slot < pad + m then
      channelByte (Memory.read Color.black ring (segmentPixel start m forward (slot - pad))) ((o - 18) % 4)
    else 0x00#8

/-- ENCODE (R210): the whole buffer is written, from zero (R205). -/
def execEncode (ring : Byte) (start count : BitVec 16) (pad uni net : Byte) (s : State) :
    Host.Outcome State Fault Refusal :=
  let m := count.toInt.natAbs
  s.finish (s.permit false false (s.withRing ring fun k =>
    if s.ringSize k < start.toNat + m then refuse .range
    else if packetSlots < pad.toNat + m then refuse .range
    else done { s with
      pkt := Memory.tabulate 0#8 packetLength
        (segmentByte s.build (s.ring k) start.toNat m (decide (0 < count.toInt)) pad.toNat uni net) }))

/-- RDPKT (R215). -/
def execRdpkt (off : BitVec 16) (s : State) : Host.Outcome State Fault Refusal :=
  s.finish (s.permit false false (
    if packetLength ≤ off.toNat then refuse .range else .ok (s, .u8 (s.packetByte off.toNat))))

end Sys2Proof.Machine
end

