-- ==== Sys2Proof/Machine/System.lean ====
section
/-! DEFINITION. The system commands (43_system.md). -/

namespace Sys2Proof.Machine

/-- NOP (R231). -/
def execNop (s : State) : Host.Outcome State Fault Refusal :=
  s.finish (s.permit true true (done s))

/-- What INIT leaves (R233): the layout latched, the rings that exist and the packet zeroed, Dark current, nothing
pending. -/
def State.initialise (s : State) : State :=
  { s with
    nringsL := s.cfg.nrings
    n0L := s.cfg.n0
    n1L := s.cfg.n1
    ring0 := if 0 < s.cfg.nrings then Memory.tabulate Color.black s.cfg.n0 (fun _ => Color.black) else s.ring0
    ring1 := if 1 < s.cfg.nrings then Memory.tabulate Color.black s.cfg.n1 (fun _ => Color.black) else s.ring1
    pkt := Memory.tabulate 0#8 packetLength (fun _ => 0#8)
    pulsing := false
    pulseH := 0
    cur := mkStage s.cfg s.cur .dark
    pendValid := false
    inited := true }

/-- INIT (R233): a second INIT is refused. -/
def execInit (s : State) : Host.Outcome State Fault Refusal :=
  s.finish (s.permit false true (if s.inited then refuse .badState else done s.initialise))

/-- CFGWR (R235): the register number, then the state, then the value. -/
def execCfgwr (reg : Byte) (value : BitVec 32) (s : State) : Host.Outcome State Fault Refusal :=
  s.finish (s.permit false true (
    match cfgRegOf reg with
    | none => refuse .range
    | some r =>
      if isLayoutReg r ∧ s.inited then refuse .badState
      else if legalValue s.build.nmax value r = false then refuse .range
      else done { s with cfg := writeReg s.cfg value r }))

/-- CFGRD (R237). -/
def execCfgrd (reg : Byte) (s : State) : Host.Outcome State Fault Refusal :=
  s.finish (s.permit false true (
    match cfgRegOf reg with
    | none => refuse .range
    | some r => .ok (s, .u32 (readReg s.cfg r))))

/-- RDSTAT (R239). -/
def execRdstat (s : State) : Host.Outcome State Fault Refusal :=
  s.finish (s.permit true true (.ok (s, .u32 s.statusWord)))

end Sys2Proof.Machine
end

