-- ==== Sys2Proof/Machine/Dispatch.lean ====
section
/-! DEFINITION. The meaning of each command. -/

namespace Sys2Proof.Machine

def exec (i : Instr) (s : State) : Host.Outcome State Fault Refusal :=
  match i with
  | .nop => Sys2Proof.Machine.execNop s
  | .clear => Sys2Proof.Machine.execClear s
  | .arc angleFrom angleTo clockwise color => Sys2Proof.Machine.execArc angleFrom angleTo clockwise color s
  | .fill ratio color => Sys2Proof.Machine.execFill ratio color s
  | .decay multiplier addition => Sys2Proof.Machine.execDecay multiplier addition s
  | .a2l ring angle => Sys2Proof.Machine.execA2l ring angle s
  | .rdpix ring idx => Sys2Proof.Machine.execRdpix ring idx s
  | .wrpix ring idx color => Sys2Proof.Machine.execWrpix ring idx color s
  | .tick dt => Sys2Proof.Machine.execTick dt s
  | .advance target force => Sys2Proof.Machine.execAdvance target force s
  | .setpulse on => Sys2Proof.Machine.execSetpulse on s
  | .setpal primary secondary fill => Sys2Proof.Machine.execSetpal primary secondary fill s
  | .rdstat => Sys2Proof.Machine.execRdstat s
  | .encode ring start count pad uni net => Sys2Proof.Machine.execEncode ring start count pad uni net s
  | .rdpkt off => Sys2Proof.Machine.execRdpkt off s
  | .cfgwr reg value => Sys2Proof.Machine.execCfgwr reg value s
  | .cfgrd reg => Sys2Proof.Machine.execCfgrd reg s
  | .init => Sys2Proof.Machine.execInit s

end Sys2Proof.Machine
end

