-- ==== Sys2Proof/Machine/Fetch.lean ====
section
/-! DEFINITION. How the next command reaches the block: the reset input, the choice of a port, the frame taken. -/

namespace Sys2Proof.Machine

/-- The reset event (R280, R282): the block is as after reset; what the host holds, the frames not yet taken and the
answers already given, is not the block's (log entry 8). -/
def State.takeReset (s : State) : State :=
  { State.resetOf s.build with
    inF := s.inF
    inC := s.inC
    outF := s.outF
    outC := s.outC
    log := s.log
    turn := s.turn }

/-- The port the next command is taken from: any with a frame waiting, a free choice when both have one (R71). -/
def State.nextPort (s : State) : Option Port :=
  match s.inF, s.inC with
  | [], [] => none
  | _ :: _, [] => some .F
  | [], _ :: _ => some .C
  | _ :: _, _ :: _ => if Config.arbiter s.turn then some .C else some .F

/-- Take the oldest frame of a port (R71): the state in which its command runs. -/
def State.takeFrame (s : State) (p : Port) : State :=
  { s with
    port := p
    turn := s.turn + 1
    inF := if p = .F then s.inF.tail else s.inF
    inC := if p = .C then s.inC.tail else s.inC }

/-- The oldest frame of a port. -/
def State.headFrame (s : State) (p : Port) : Frame :=
  match p with
  | .F => s.inF.headD []
  | .C => s.inC.headD []

/-- The next frame and the state in which its command runs; none while no frame waits. -/
def State.fetch (s : State) : Option (Frame × State) :=
  s.nextPort.map (fun p => (s.headFrame p, s.takeFrame p))

/-- A malformed frame: `raise BADOPC` (R83, R252). -/
def State.refuseMalformed (s : State) : State := s.raise ⟨.badOpc, none⟩

/-- A frame alone on port F, which the next step takes whatever the arbitration (log entry 11). -/
def State.withFrame (s : State) (f : Frame) : State :=
  { s with
    inF := [f]
    inC := []
    resetIn := false }

end Sys2Proof.Machine
end

