-- ==== Sys2Proof/Machine/Step.lean ====
section
/-! DEFINITION. One step: the reset event, or the next command whole (R70), or nothing while the block is idle
(log entry 13). -/

namespace Sys2Proof.Machine

/-- One step of the block. -/
def step (s : State) : Host.Outcome State Fault Refusal :=
  if s.resetIn then .next s.takeReset
  else
    match s.fetch with
    | none => .next s
    | some (f, s') =>
      match decode s'.build.cw f with
      | .ok i => exec i s'
      | .error _ => .next s'.refuseMalformed

/-- The state whose next step takes and runs the command of a table word, issued on port F. -/
def State.withFetchWord (s : State) (nbits w : Nat) : State :=
  s.withFrame (wordFrame s.build.cw nbits w)

end Sys2Proof.Machine
end

