-- ==== Sys2Proof/Machine/HostSide.lean ====
section
/-! DEFINITION. The block's surroundings at their interface (R3): the commands that the frame loop, the start-up and
shutdown sequences and the control text listener issue. They are functions that give commands; the parties themselves
are outside the block (R4). -/

namespace Sys2Proof.Machine

/-- A port has these commands to issue, in this order, after those it has waiting (R71, R291). A command of the spec has
no channel above CMAX (R84, U27); of one that is not `Instr.wf` the frame keeps the low CW bits of a channel (DESIGN
CHOICE, log entry 19). -/
def State.issue (s : State) (p : Port) (commands : List Instr) : State :=
  { s with
    inF := if p = .F then s.inF ++ commands.map (encode s.build.cw) else s.inF
    inC := if p = .C then s.inC ++ commands.map (encode s.build.cw) else s.inC }

/-! ### The control listener -/

/-- A line of the control text, already parsed (R99); the channels of a palette are as the line has them. -/
inductive ControlLine where
  | advanceStage (stageNumber : Nat)
  | advanceStagePulsing (stageNumber : Nat)
  | palette (p : Palette)
  /-- any line that is none of the recognised commands -/
  | unrecognized
deriving DecidableEq, Repr

/-- The colour with each channel brought down to CMAX, so that a `col` operand can hold it (R84). -/
def clipColor (cw : ChannelWidth) (c : Color) : Color :=
  ⟨min c.r cw.cmax, min c.g cw.cmax, min c.b cw.cmax, min c.w cw.cmax⟩

/-- A SETPAL with the entries of a palette (R185). -/
def setpalOf (p : Palette) : Instr := .setpal p.primary p.secondary p.fill

/-- What a `Palette` line becomes (R188). Of a line with a channel above CMAX the spec says nothing (N12, U27), so its
outcome is free (DESIGN CHOICE, log entry 24): no command, or a SETPAL with any colours a frame can carry. -/
def paletteCommands (cw : ChannelWidth) (p : Palette) : List Instr :=
  if p.fits cw then [setpalOf p]
  else match Config.listenerPalette cw p with
    | none => []
    | some q => [setpalOf ⟨clipColor cw q.primary, clipColor cw q.secondary, clipColor cw q.fill⟩]

/-- What a line becomes on port C, `status` being the word its RDSTAT reads (R186, R187, R188): a line that is not
recognised and a stage number that names no stage give nothing, and `AdvanceStage` gives no ADVANCE while bit 7,
PULSING, is set. -/
def controlCommands (cw : ChannelWidth) (status : BitVec 32) : ControlLine → List Instr
  | .advanceStage n =>
    if 5 < n then []
    else if status.getLsbD 7 then [.rdstat]
    else [.rdstat, .advance (BitVec.ofNat 8 n) 0x00#8]
  | .advanceStagePulsing n =>
    if 5 < n then [] else [.setpulse 0x01#8, .advance (BitVec.ofNat 8 n) 0x00#8]
  | .palette p => paletteCommands cw p
  | .unrecognized => []

/-! ### The frame loop -/

/-- One entry of the host's segment plan (R217). -/
structure Segment where
  ring : Byte
  start : BitVec 16
  count : BitVec 16
  pad : Byte
  uni : Byte
  net : Byte
deriving DecidableEq, Repr

/-- Encode one segment and read the packet out, before the next ENCODE (R290, R296). -/
def sendSegment (g : Segment) : List Instr :=
  .encode g.ring g.start g.count g.pad g.uni g.net
    :: (List.range 530).map (fun o => .rdpkt (BitVec.ofNat 16 o))

/-- One frame of the frame loop on the protocol path (R290). -/
def frameCommands (dt : Q16) (plan : List Segment) : List Instr :=
  .tick dt :: plan.flatMap sendSegment

/-- One frame of the frame loop on the debug render path, for rings of the given sizes (R290, R136). -/
def debugFrameCommands (dt : Q16) (sizes : List Nat) : List Instr :=
  .tick dt :: sizes.zipIdx.flatMap (fun (n, k) =>
    (List.range n).map (fun i => .rdpix (BitVec.ofNat 8 k) (BitVec.ofNat 16 i)))

/-- The RGBW word of a pixel on the debug render path: `{R, G, B, W}`, `4 * CW` bits, R in the most significant `CW`
(R64, R136). -/
def rgbwWord (cw : ChannelWidth) (c : Color) : BitVec (4 * cw.bits) :=
  (BitVec.ofNat cw.bits c.r ++ BitVec.ofNat cw.bits c.g ++ BitVec.ofNat cw.bits c.b ++ BitVec.ofNat cw.bits c.w).cast
    (by omega)

/-- The hexadecimal digits of a pixel's RGBW word, the most significant first (R136). -/
def rgbwDigits (cw : ChannelWidth) (c : Color) : List (BitVec 4) :=
  (List.range cw.bits).map (fun j => (rgbwWord cw c).extractLsb' (4 * (cw.bits - 1 - j)) 4)

/-- The RGBW word that the host forms from the answer to RDPIX, a code byte and a `col` (R85, R90, R136). -/
def debugWord (cw : ChannelWidth) (answer : Frame) : BitVec (4 * cw.bits) := rgbwWord cw (colAt cw answer 1)

/-- The words of one frame of the debug render path, one line per ring, from the answers to the RDPIX commands of
`debugFrameCommands` for the same ring sizes (R136). -/
def debugLines (cw : ChannelWidth) : List Nat → List Frame → List (List (BitVec (4 * cw.bits)))
  | [], _ => []
  | n :: sizes, answers => (answers.take n).map (debugWord cw) :: debugLines cw sizes (answers.drop n)

/-! ### Start-up and shutdown -/

/-- The start-up sequence: the configuration and the palette, then INIT (R285). -/
def startCommands (registers : List (Byte × BitVec 32)) (palette : Palette) : List Instr :=
  registers.map (fun (r, v) => .cfgwr r v) ++ [setpalOf palette, .init]

/-- The shutdown sequence: clear the canvas and send one zeroed frame (R270). -/
def shutdownCommands (plan : List Segment) : List Instr :=
  .clear :: plan.flatMap sendSegment

end Sys2Proof.Machine
end

