-- ==== Sys2Proof/Safety.lean ====
section
/-! DEFINITION. What a legal state is, and the words the statements use. -/

namespace Sys2Proof.Machine

/-- Angular positions lie in `[0, 360)` and a fill ratio in `[0, 1]` (R33, R36, R172). -/
def StageData.legal : StageData → Prop
  | .dark _ => True
  | .starting d => 0 ≤ d.particlePosition ∧ d.particlePosition < 360
  | .idle d => 0 ≤ d.particlePosition ∧ d.particlePosition < 360
  | .windup d =>
    (0 ≤ d.firstParticlePosition ∧ d.firstParticlePosition < 360) ∧
    (0 ≤ d.secondParticlePosition ∧ d.secondParticlePosition < 360)
  | .explosion d => 0 ≤ d.fillRatio ∧ d.fillRatio ≤ 1
  | .fade _ => True

/-- Every pixel listed is a Color of the build (R23). -/
abbrev Memory.fits (cw : ChannelWidth) (m : Memory Color) : Prop := ∀ c ∈ m, c.2.fits cw

/-- The legal states: those that no rule forbids. -/
structure State.Legal (s : State) : Prop where
  /-- the arguments of the model are those of R6 -/
  build : s.build.legal
  /-- the layout registers hold legal values (R41) -/
  cfg : s.cfg.legal s.build.nmax
  /-- the layout in force is the configured one (R22, R237) -/
  layout : s.inited = true → s.nringsL = s.cfg.nrings ∧ s.n0L = s.cfg.n0 ∧ s.n1L = s.cfg.n1
  /-- nothing is pending, pulsing or advanced before INIT (R280) -/
  beforeInit : s.inited = false → s.pendValid = false ∧ s.pulsing = false ∧ s.pulseH = 0
  /-- the memories are in canonical form -/
  ring0Wf : Memory.wf Color.black s.ring0
  ring1Wf : Memory.wf Color.black s.ring1
  pktWf : Memory.wf 0#8 s.pkt
  /-- no cell beyond the end of a space (R60, R61) -/
  ring0Below : 0 < s.nringsL → Memory.below s.n0L s.ring0
  ring1Below : 1 < s.nringsL → Memory.below s.n1L s.ring1
  pktBelow : Memory.below packetLength s.pkt
  /-- every channel is a value 0 .. CMAX (R23) -/
  ring0Fits : Memory.fits s.build.cw s.ring0
  ring1Fits : Memory.fits s.build.cw s.ring1
  palFits : s.pal.fits s.build.cw
  /-- positions and ratios are in range (R172) -/
  cur : s.cur.legal
  pend : s.pend.legal

/-- Port C accepts the command (R262). -/
def acceptedOnPortC : Instr → Bool
  | .nop | .advance _ _ | .setpulse _ | .setpal _ _ _ | .rdstat => true
  | .clear | .arc _ _ _ _ | .fill _ _ | .decay _ _ | .a2l _ _ | .rdpix _ _ | .wrpix _ _ _ | .tick _
  | .encode _ _ _ _ _ _ | .rdpkt _ | .cfgwr _ _ | .cfgrd _ | .init => false

/-- The command is accepted while `INITED = 0` (R253). -/
def acceptedBeforeInit : Instr → Bool
  | .nop | .cfgwr _ _ | .cfgrd _ | .rdstat | .setpal _ _ _ | .init => true
  | .clear | .arc _ _ _ _ | .fill _ _ | .decay _ _ | .a2l _ _ | .rdpix _ _ | .wrpix _ _ _ | .tick _ | .advance _ _
  | .setpulse _ | .encode _ _ _ _ _ _ | .rdpkt _ => false

/-- The causes of `RANGE`, by command (R255). -/
def rangeCause (s : State) : Instr → Prop
  | .arc _ _ k _ => k ≠ 0x00#8 ∧ k ≠ 0x01#8
  | .advance t k => (k ≠ 0x00#8 ∧ k ≠ 0x01#8) ∨ 5 < t.toNat
  | .setpulse k => k ≠ 0x00#8 ∧ k ≠ 0x01#8
  | .a2l r _ => s.nringsL ≤ r.toNat
  | .rdpix r i => s.nringsL ≤ r.toNat ∨ s.ringSize r.toNat ≤ i.toNat
  | .wrpix r i _ => s.nringsL ≤ r.toNat ∨ s.ringSize r.toNat ≤ i.toNat
  | .fill ratio _ => numOf ratio < 0 ∨ 1 < numOf ratio
  | .tick dt => numOf dt < 0
  | .encode r st ct pad _ _ =>
    s.nringsL ≤ r.toNat ∨ s.ringSize r.toNat < st.toNat + ct.toInt.natAbs ∨ 128 < pad.toNat + ct.toInt.natAbs
  | .rdpkt o => 530 ≤ o.toNat
  | .cfgwr r v =>
    (3 < r.toNat ∧ r.toNat < 0x10) ∨ 0x18 < r.toNat ∨ (r.toNat = 0 ∧ v.toNat ≠ 1 ∧ v.toNat ≠ 2) ∨
    ((r.toNat = 1 ∨ r.toNat = 2) ∧ (v.toNat = 0 ∨ s.build.nmax < v.toNat))
  | .cfgrd r => (3 < r.toNat ∧ r.toNat < 0x10) ∨ 0x18 < r.toNat
  | .nop | .clear | .decay _ _ | .setpal _ _ _ | .rdstat | .init => False

/-- The LOG event of a `RANGE` refusal: only ADVANCE with a sound flag has one (R180, R255). -/
def rangeEvent (s : State) : Instr → Option LogEvent
  | .advance t k => if k = 0x00#8 ∨ k = 0x01#8 then some ⟨.range, t.toNat, s.cur.tag.num⟩ else none
  | .arc _ _ _ _ | .setpulse _ | .a2l _ _ | .rdpix _ _ | .wrpix _ _ _ | .fill _ _ | .tick _ | .encode _ _ _ _ _ _
  | .rdpkt _ | .cfgwr _ _ | .cfgrd _ | .nop | .clear | .decay _ _ | .setpal _ _ _ | .rdstat | .init => none

/-- The bytes of a command's result (R90). -/
def resultLength (cw : ChannelWidth) : Instr → Nat
  | .a2l _ _ | .rdstat | .cfgrd _ => 4
  | .rdpix _ _ => 4 * cw.cb
  | .rdpkt _ => 1
  | .nop | .clear | .arc _ _ _ _ | .fill _ _ | .decay _ _ | .wrpix _ _ _ | .tick _ | .advance _ _ | .setpulse _
  | .setpal _ _ _ | .encode _ _ _ _ _ _ | .cfgwr _ _ | .init => 0

/-- The flag a sound `flag` byte stands for (R84). -/
def isFlag (b : Byte) (v : Bool) : Prop := (b = 0x00#8 ∧ v = false) ∨ (b = 0x01#8 ∧ v = true)

/-- The elapsed time of a stage data (R31). -/
def StageData.elapsed : StageData → ℚ
  | .dark d => d.elapsedTime
  | .starting d => d.elapsedTime
  | .idle d => d.elapsedTime
  | .windup d => d.elapsedTime
  | .explosion d => d.elapsedTime
  | .fade d => d.elapsedTime

end Sys2Proof.Machine
end

