-- ==== Sys2Proof/Certificates/Slice0/Obligations.lean ====
section
/-! DEFINITION. The statements for the provers. -/

open Sys2Proof Sys2Proof.Machine

/-! ### Encoding -/

/-- Every well-formed command survives its frame: R82, R84, R86, R87. -/
def Obligations.DecodeOfEncodedCommand : Prop :=
  ∀ (cw : ChannelWidth) (i : Instr), i.wf cw = true → decode cw (encode cw i) = .ok i

/-- Every frame that decodes is the frame of a well-formed command, byte for byte: R82, R84, R87. -/
def Obligations.EncodeOfDecodedFrame : Prop :=
  ∀ (cw : ChannelWidth) (f : Frame) (i : Instr), decode cw f = .ok i → i.wf cw = true ∧ encode cw i = f

/-- R83: a frame whose first byte is no opcode, or whose length is not its opcode's, raises BADOPC and does nothing
else; any other frame runs the command it decodes to. -/
def Obligations.MalformedFrameRaisesBadOpc : Prop :=
  ∀ (s s' : State) (f : Frame), f ≠ [] → s.resetIn = false → s.fetch = some (f, s') →
    ((¬ ∃ o : Opcode, f.head? = some o.byte ∧ f.length = o.frameLength s'.build.cw) →
      step s = .next { s' with
        sticky := { s'.sticky with errOpc := true }
        outF := if s'.port = .F then s'.outF ++ [⟨.badOpc, .none, [0x03#8]⟩] else s'.outF
        outC := if s'.port = .C then s'.outC ++ [⟨.badOpc, .none, [0x03#8]⟩] else s'.outC }) ∧
    ((∃ o : Opcode, f.head? = some o.byte ∧ f.length = o.frameLength s'.build.cw) →
      ∃ i, decode s'.build.cw f = .ok i ∧ step s = exec i s')

/-- R86, R95: the opcode bytes are the eighteen of the map, and no byte of the reserved ranges is one. -/
def Obligations.OpcodeBytesAreThoseOfTheMap : Prop :=
  (∀ b : Byte, Opcode.ofByte b = none ↔
    (0x08 ≤ b.toNat ∧ b.toNat ≤ 0x0F) ∨ (0x15 ≤ b.toNat ∧ b.toNat ≤ 0x1F) ∨ (0x22 ≤ b.toNat ∧ b.toNat ≤ 0x2F) ∨
      0x33 ≤ b.toNat) ∧
  Opcode.all.map Opcode.byte =
    [0x00#8, 0x01#8, 0x02#8, 0x03#8, 0x04#8, 0x05#8, 0x06#8, 0x07#8, 0x10#8, 0x11#8, 0x12#8, 0x13#8, 0x14#8, 0x20#8,
     0x21#8, 0x30#8, 0x31#8, 0x32#8]

/-- R88, the worked frame of ARC. -/
def Obligations.WorkedArcFrame : Prop :=
  encode .w8 (.arc 0x000A0000#32 0x00320000#32 0x01#8 ⟨200, 100, 50, 25⟩) =
    [0x02#8, 0x00#8, 0x00#8, 0x0A#8, 0x00#8, 0x00#8, 0x00#8, 0x32#8, 0x00#8, 0x01#8, 0xC8#8, 0x64#8, 0x32#8, 0x19#8] ∧
  decode .w8
    [0x02#8, 0x00#8, 0x00#8, 0x0A#8, 0x00#8, 0x00#8, 0x00#8, 0x32#8, 0x00#8, 0x01#8, 0xC8#8, 0x64#8, 0x32#8, 0x19#8] =
    .ok (.arc 0x000A0000#32 0x00320000#32 0x01#8 ⟨200, 100, 50, 25⟩) ∧
  numOf 0x000A0000#32 = 10 ∧ numOf 0x00320000#32 = 50

/-- Frames written out from R84, R86, R87, one of each family, decode to the command they stand for. -/
def Obligations.WrittenFramesDecode : Prop :=
  decode .w8 [0x20#8, 0x00#8, 0x01#8, 0x00#8, 0xFD#8, 0xFF#8, 0x02#8, 0x07#8, 0x01#8] =
    .ok (.encode 0x00#8 1#16 0xFFFD#16 0x02#8 0x07#8 0x01#8) ∧
  decode .w8 [0x10#8, 0x00#8, 0x80#8, 0x00#8, 0x00#8] = .ok (.tick 0x00008000#32) ∧ numOf 0x00008000#32 = 1 / 2 ∧
  decode .w8 [0x30#8, 0x12#8, 0x00#8, 0x00#8, 0x96#8, 0x00#8] = .ok (.cfgwr 0x12#8 0x00960000#32) ∧
  decode .w16 [0x07#8, 0x01#8, 0x67#8, 0x01#8, 0x34#8, 0x12#8, 0xFF#8, 0x00#8, 0x00#8, 0x01#8, 0xFF#8, 0xFF#8] =
    .ok (.wrpix 0x01#8 359#16 ⟨0x1234, 0x00FF, 0x0100, 0xFFFF⟩) ∧
  decode .w8 [0x11#8, 0x06#8, 0x01#8] = .ok (.advance 0x06#8 0x01#8) ∧
  decode .w8 [0x10#8, 0x00#8, 0x80#8, 0x00#8] = .error (.wrongLength .tick 4)

/-! ### The step, reset and the legal states -/

/-- A step takes the frame that waits and runs the command it decodes to: R70, R82. -/
def Obligations.StepRunsTheDecodedCommand : Prop :=
  ∀ (s : State) (i : Instr) (f : Frame) (rest : List Frame), s.resetIn = false → decode s.build.cw f = .ok i →
    (s.inF = f :: rest → s.inC = [] → step s = exec i { s with port := .F, turn := s.turn + 1, inF := rest }) ∧
    (s.inF = [] → s.inC = f :: rest → step s = exec i { s with port := .C, turn := s.turn + 1, inC := rest })

/-- R71: with a frame waiting on both ports either may be taken, the oldest of its port, and nothing else happens. With
none waiting the block is idle (the idle step is the model's choice, log entry 13), and a frame of no byte is refused
as malformed (the model's choice, log entry 12). -/
def Obligations.EitherWaitingPortIsTaken : Prop :=
  ∀ s : State, s.resetIn = false →
    (∀ f restF g restC i j, s.inF = f :: restF → s.inC = g :: restC →
      decode s.build.cw f = .ok i → decode s.build.cw g = .ok j →
        step s = exec i { s with port := .F, turn := s.turn + 1, inF := restF } ∨
        step s = exec j { s with port := .C, turn := s.turn + 1, inC := restC }) ∧
    (s.inF = [] → s.inC = [] → step s = .next s) ∧
    (∀ s', s.fetch = some ([], s') → step s = .next (s'.raise ⟨.badOpc, none⟩))

/-- R280, R282: what reset leaves, for every build, and that the reset event leaves it whatever the state was. How
reset is signalled and that the queues outlive it are the model's choices (log entry 8). -/
def Obligations.ResetLeavesTheResetState : Prop :=
  (∀ b : Build,
    (State.resetOf b).inited = false ∧ (State.resetOf b).pulsing = false ∧ (State.resetOf b).pulseH = 0 ∧
    (State.resetOf b).pendValid = false ∧ (State.resetOf b).pal = b.defaults.pal ∧
    (State.resetOf b).cfg = b.defaults.cfg ∧ (State.resetOf b).sticky = ⟨false, false, false, false, false⟩ ∧
    (State.resetOf b).statusWord = 0#32) ∧
  ∀ s : State, s.resetIn = true →
    step s = .next { State.resetOf s.build with
      inF := s.inF, inC := s.inC, outF := s.outF, outC := s.outC, log := s.log, turn := s.turn }

/-- The reset state of every legal build is a legal state, the model's own among them. -/
def Obligations.ResetStateIsLegal : Prop :=
  (∀ b : Build, b.legal → (State.resetOf b).Legal) ∧ State.reset.Legal

/-- Every step keeps the legal states: layout, canonical memories within their bounds, channels within CMAX, positions
and ratios in range (R22, R23, R41, R60, R61, R172). -/
def Obligations.StepKeepsLegalStates : Prop :=
  ∀ s t : State, s.Legal → step s = .next t → t.Legal

/-- R257: nothing stops the block, from any state, legal or not; and no step changes the build (R291). -/
def Obligations.EveryStepAnswersANextState : Prop :=
  ∀ s : State, ∃ t, step s = .next t ∧ t.build = s.build

/-! ### Refusals and responses -/

/-- R251: a command either answers OK, with no sticky bit and no LOG event, or is refused, and then its whole effect is
one sticky bit, one response and, for ADVANCE only, a LOG event. -/
def Obligations.RefusalChangesOnlyItsRecord : Prop :=
  ∀ (i : Instr) (s t : State), exec i s = .next t →
    (∃ (s' : State) (x : Result), t = s'.respond .ok x ∧ s'.sticky = s.sticky ∧ s'.log = s.log) ∨
    (∃ (code : RespCode) (event : Option LogEvent), code ≠ .ok ∧
      (event ≠ none → ∃ target force, i = .advance target force) ∧
      t = { s with
        sticky := s.sticky.set code
        log := s.log ++ event.toList
        outF := if s.port = .F then s.outF ++ [⟨code, .none, [code.byte]⟩] else s.outF
        outC := if s.port = .C then s.outC ++ [⟨code, .none, [code.byte]⟩] else s.outC })

/-- R90: exactly one response frame answers a command, on its own port: the code byte, then the encoded result, whose
length is that of the command when the code is OK; a refused command has no result. -/
def Obligations.OneResponseFrameOnTheCommandsPort : Prop :=
  ∀ (i : Instr) (s t : State), exec i s = .next t →
    ∃ a : Response,
      t.outF = (if s.port = .F then s.outF ++ [a] else s.outF) ∧
      t.outC = (if s.port = .C then s.outC ++ [a] else s.outC) ∧
      a.frame = a.code.byte :: a.result.bytes s.build.cw ∧
      (a.code = .ok → (a.result.bytes s.build.cw).length = resultLength s.build.cw i) ∧
      (a.code ≠ .ok → a.result = .none)

/-- R254: a command on a port that does not accept it raises BADPORT, before any other check of the command, and
nothing else sets ERR_PORT. -/
def Obligations.WrongPortRaisesBadPort : Prop :=
  (∀ (i : Instr) (s : State), s.port = .C → acceptedOnPortC i = false →
    exec i s = .next (s.raise ⟨.badPort, none⟩)) ∧
  (∀ (i : Instr) (s t : State), (s.port = .F ∨ acceptedOnPortC i = true) → exec i s = .next t →
    t.sticky.errPort = s.sticky.errPort) ∧
  (∀ s : State, (s.raise ⟨.badPort, none⟩).sticky = { s.sticky with errPort := true })

/-- R253: the three causes of BADSTATE, and nothing else sets ERR_STATE. -/
def Obligations.WrongStateRaisesBadState : Prop :=
  (∀ (i : Instr) (s : State), (s.port = .C → acceptedOnPortC i = true) →
    (s.inited = false ∧ acceptedBeforeInit i = false) ∨ (s.inited = true ∧ i = .init) ∨
      (s.inited = true ∧ ∃ r v, i = .cfgwr r v ∧ r.toNat ≤ 2) →
    exec i s = .next (s.raise ⟨.badState, none⟩)) ∧
  (∀ (i : Instr) (s t : State),
    ¬ ((s.inited = false ∧ acceptedBeforeInit i = false) ∨ (s.inited = true ∧ i = .init) ∨
      (s.inited = true ∧ ∃ r v, i = .cfgwr r v ∧ r.toNat ≤ 2)) →
    exec i s = .next t → t.sticky.errState = s.sticky.errState) ∧
  (∀ s : State, (s.raise ⟨.badState, none⟩).sticky = { s.sticky with errState := true })

/-- R255: an admitted command raises RANGE on exactly the causes listed for it. A write of a ring layout register after
INIT is not admitted (R258). -/
def Obligations.RangeIsRaisedOnExactlyItsCauses : Prop :=
  (∀ (i : Instr) (s : State), (s.port = .C → acceptedOnPortC i = true) →
    (s.inited = false → acceptedBeforeInit i = true) → ¬ (s.inited = true ∧ ∃ r v, i = .cfgwr r v ∧ r.toNat ≤ 2) →
    (rangeCause s i → exec i s = .next (s.raise ⟨.range, rangeEvent s i⟩)) ∧
    (¬ rangeCause s i → ∀ t, exec i s = .next t → t.sticky.errRange = s.sticky.errRange)) ∧
  (∀ (s : State) (e : Option LogEvent), (s.raise ⟨.range, e⟩).sticky = { s.sticky with errRange := true })

/-! ### The CANVAS family -/

/-- R132: CLEAR zeroes every pixel of every ring and touches nothing else. -/
def Obligations.ClearZeroesEveryPixel : Prop :=
  (∀ cw, encode cw .clear = [0x01#8]) ∧
  ∀ s : State, s.port = .F → s.inited = true →
    ∃ r0 r1 u, u = { s with ring0 := r0, ring1 := r1 } ∧ exec .clear s = .next (u.respond .ok .none) ∧
      (s.nringsL = 0 → r0 = s.ring0) ∧ (s.nringsL ≤ 1 → r1 = s.ring1) ∧
      (∀ k i, k < s.nringsL → i < s.ringSize k → u.pixel k i = Color.black) ∧
      (∀ (ring : Byte) (idx : BitVec 16), ring.toNat < s.nringsL → idx.toNat < s.ringSize ring.toNat →
        exec (.rdpix ring idx) u = .next (u.respond .ok (.col ⟨0, 0, 0, 0⟩)))

/-- R120 to R123: on every ring ARC paints the pixels of its span in the effective colour, then the boundary pixel in
the weighted colour, and leaves every other pixel. -/
def Obligations.ArcPaintsSpanThenBoundary : Prop :=
  ∀ (s : State) (angleFrom angleTo : Q16) (flag : Byte) (clockwise : Bool) (color : Color),
    s.port = .F → s.inited = true → isFlag flag clockwise →
    ∃ r0 r1 u, u = { s with ring0 := r0, ring1 := r1 } ∧
      exec (.arc angleFrom angleTo flag color) s = .next (u.respond .ok .none) ∧
      (s.nringsL = 0 → r0 = s.ring0) ∧ (s.nringsL ≤ 1 → r1 = s.ring1) ∧
      ∀ k i, k < s.nringsL → i < s.ringSize k →
        let n : ℤ := s.ringSize k
        let c := if s.pulsing = true then scale s.build.cw color ((sinpi s.pulseH + 1) / 2) else color
        let aF := norm360 (numOf angleFrom)
        let aT := norm360 (numOf angleTo)
        let iF := ⌊(n : ℚ) / 360 * aF⌋
        let iT := ⌊(n : ℚ) / 360 * aT⌋
        let f := (n : ℚ) / 360 * aT - iT
        u.pixel k i =
          if (i : ℤ) = (if clockwise = true then (iT + 1) % n else (iT - 1) % n) then scale s.build.cw c (f / 2)
          else if (if clockwise = true then (if aF ≤ aT then iF ≤ i ∧ i ≤ iT else iF ≤ i ∨ i ≤ iT)
                   else (if aT ≤ aF then iT ≤ i ∧ i ≤ iF else i ≤ iF ∨ iT ≤ i)) then c
          else s.pixel k i

/-- R126: FILL raises each channel of each pixel to that of the scaled effective colour, for a ratio in [0, 1]. -/
def Obligations.FillRaisesEveryChannel : Prop :=
  ∀ (s : State) (ratio : Q16) (color : Color), s.port = .F → s.inited = true →
    0 ≤ numOf ratio → numOf ratio ≤ 1 →
    ∃ r0 r1 u, u = { s with ring0 := r0, ring1 := r1 } ∧
      exec (.fill ratio color) s = .next (u.respond .ok .none) ∧
      (s.nringsL = 0 → r0 = s.ring0) ∧ (s.nringsL ≤ 1 → r1 = s.ring1) ∧
      ∀ k i, k < s.nringsL → i < s.ringSize k →
        let c := if s.pulsing = true then scale s.build.cw color ((sinpi s.pulseH + 1) / 2) else color
        (u.pixel k i).r = max (s.pixel k i).r (chan s.build.cw (c.r * numOf ratio)) ∧
        (u.pixel k i).g = max (s.pixel k i).g (chan s.build.cw (c.g * numOf ratio)) ∧
        (u.pixel k i).b = max (s.pixel k i).b (chan s.build.cw (c.b * numOf ratio)) ∧
        (u.pixel k i).w = max (s.pixel k i).w (chan s.build.cw (c.w * numOf ratio))

/-- R127: FILL never decreases a channel, FILL with ratio 0 changes no pixel, and of two FILLs with one colour and
rising ratios the second decides. -/
def Obligations.FillIsMonotone : Prop :=
  ∀ (s : State) (c : Color) (r1 r2 : ℚ) (k i : Nat), k < s.nringsL → i < s.ringSize k → 0 ≤ r1 → r1 ≤ r2 → r2 ≤ 1 →
    (s.pixel k i).r ≤ ((s.drawFill r1 c).pixel k i).r ∧ (s.pixel k i).g ≤ ((s.drawFill r1 c).pixel k i).g ∧
    (s.pixel k i).b ≤ ((s.drawFill r1 c).pixel k i).b ∧ (s.pixel k i).w ≤ ((s.drawFill r1 c).pixel k i).w ∧
    (s.drawFill 0 c).pixel k i = s.pixel k i ∧
    ((s.drawFill r1 c).drawFill r2 c).pixel k i = (s.drawFill r2 c).pixel k i

/-- R130: DECAY scales and biases every channel exactly, then brings it to a channel value once. -/
def Obligations.DecayScalesEveryChannel : Prop :=
  ∀ (s : State) (multiplier addition : Q16), s.port = .F → s.inited = true →
    ∃ r0 r1 u, u = { s with ring0 := r0, ring1 := r1 } ∧
      exec (.decay multiplier addition) s = .next (u.respond .ok .none) ∧
      (s.nringsL = 0 → r0 = s.ring0) ∧ (s.nringsL ≤ 1 → r1 = s.ring1) ∧
      ∀ k i, k < s.nringsL → i < s.ringSize k →
        let f : Nat → Nat := fun v =>
          (min (max ⌊(v : ℚ) * numOf multiplier + numOf addition⌋ 0) (s.build.cw.cmax : ℤ)).toNat
        u.pixel k i = ⟨f (s.pixel k i).r, f (s.pixel k i).g, f (s.pixel k i).b, f (s.pixel k i).w⟩

/-- R131: DECAY 1, 0 is the identity on a legal canvas, and DECAY 0, 0 zeroes every pixel. -/
def Obligations.DecayIdentityAndZero : Prop :=
  ∀ (s : State) (k i : Nat), s.Legal → k < s.nringsL → i < s.ringSize k →
    (s.drawDecay 1 0).pixel k i = s.pixel k i ∧ (s.drawDecay 0 0).pixel k i = Color.black

/-- R130, R298: with addition 0 and a multiplier in [0, 1) repeated decay reaches exact zero in finitely many steps. -/
def Obligations.RepeatedDecayReachesZero : Prop :=
  ∀ (cw : ChannelWidth) (m : ℚ) (p : Color), 0 ≤ m → m < 1 → p.fits cw →
    ∃ k, k ≤ cw.cmax ∧ (decayColor cw m 0)^[k] p = Color.black

/-- R115: A2L answers the fractional index of the angle on the ring it names, and changes no state. -/
def Obligations.A2lAnswersTheFractionalIndex : Prop :=
  ∀ (s : State) (ring : Byte) (angle : Q16), s.port = .F → s.inited = true →
    (s.nringsL ≤ ring.toNat → exec (.a2l ring angle) s = .next (s.raise ⟨.range, none⟩)) ∧
    (ring.toNat < s.nringsL → exec (.a2l ring angle) s =
      .next (s.respond .ok (.unum ((s.ringSize ring.toNat : ℚ) / 360 * norm360 (numOf angle)))))

/-- R114: the fractional index lies in [0, N) and does not change when whole turns are added to the angle. -/
def Obligations.FractionalIndexIsInRangeAndPeriodic : Prop :=
  ∀ (n : Nat) (a : ℚ) (k : ℤ), 1 ≤ n →
    led n a = (n : ℚ) / 360 * norm360 a ∧ 0 ≤ led n a ∧ led n a < n ∧ led n (a + 360 * k) = led n a ∧
    wholeIndex n a < n ∧ (wholeIndex n a : ℤ) = ⌊led n a⌋ ∧ 0 ≤ subPixel n a ∧ subPixel n a < 1 ∧
    led n a = wholeIndex n a + subPixel n a

/-- R136, R64: RDPIX answers the pixel, or RANGE for a ring or an index that does not exist, and writes nothing. The
debug read-out forms from the answer the pixel's RGBW word, R in the most significant CW bits, then G, B and W. -/
def Obligations.RdpixAnswersThePixel : Prop :=
  ∀ (s : State) (ring : Byte) (idx : BitVec 16), s.port = .F → s.inited = true →
    (s.nringsL ≤ ring.toNat ∨ s.ringSize ring.toNat ≤ idx.toNat →
      exec (.rdpix ring idx) s = .next (s.raise ⟨.range, none⟩)) ∧
    (ring.toNat < s.nringsL → idx.toNat < s.ringSize ring.toNat →
      exec (.rdpix ring idx) s = .next (s.respond .ok (.col (s.pixel ring.toNat idx.toNat)))) ∧
    (∀ c : Color, c = s.pixel ring.toNat idx.toNat → c.fits s.build.cw →
      debugWord s.build.cw (Response.of s.build.cw .ok (.col c)).frame = rgbwWord s.build.cw c ∧
      (rgbwWord s.build.cw c).toNat =
        c.r * 2 ^ (3 * s.build.cw.bits) + c.g * 2 ^ (2 * s.build.cw.bits) + c.b * 2 ^ s.build.cw.bits + c.w)

/-- R138: WRPIX writes the pixel as given, whatever the pulse, and no other. -/
def Obligations.WrpixWritesOnePixel : Prop :=
  ∀ (s : State) (ring : Byte) (idx : BitVec 16) (color : Color), s.port = .F → s.inited = true → s.nringsL ≤ 2 →
    (s.nringsL ≤ ring.toNat ∨ s.ringSize ring.toNat ≤ idx.toNat →
      exec (.wrpix ring idx color) s = .next (s.raise ⟨.range, none⟩)) ∧
    (ring.toNat < s.nringsL → idx.toNat < s.ringSize ring.toNat →
      ∃ r0 r1 u, u = { s with ring0 := r0, ring1 := r1 } ∧
        exec (.wrpix ring idx color) s = .next (u.respond .ok .none) ∧
        ∀ k i, k < 2 → u.pixel k i = if k = ring.toNat ∧ i = idx.toNat then color else s.pixel k i)

/-! ### The STAGE family -/

/-- R151: a TICK with a negative dt is refused whole, the swap included. -/
def Obligations.NegativeTickIsRefusedWhole : Prop :=
  ∀ (s : State) (dt : Q16), s.port = .F → s.inited = true → numOf dt < 0 →
    exec (.tick dt) s = .next (s.raise ⟨.range, none⟩)

/-- R155, R156: the swap takes the pending stage data, clearing the canvas and the pulse on entry to Dark, and does
nothing when none is pending. -/
def Obligations.SwapTakesThePendingStage : Prop :=
  ∀ s : State,
    (s.pendValid = false → s.swap = s) ∧
    (s.pendValid = true → s.pend.tag ≠ .dark → s.swap = { s with cur := s.pend, pendValid := false }) ∧
    (s.pendValid = true → s.pend.tag = .dark →
      ∃ r0 r1, s.swap =
          { s with cur := s.pend, pendValid := false, pulsing := false, ring0 := r0, ring1 := r1 } ∧
        (s.nringsL = 0 → r0 = s.ring0) ∧ (s.nringsL ≤ 1 → r1 = s.ring1) ∧
        ∀ k i, k < s.nringsL → i < s.ringSize k → s.swap.pixel k i = Color.black)

/-- R161: a TICK that finds Dark current after its swap. -/
def Obligations.TickInDark : Prop :=
  ∀ (s u : State) (dt : Q16) (d : DarkData), s.port = .F → s.inited = true → 0 ≤ numOf dt → s.swap.cur = .dark d →
    u = { s.swap with
      pulseH := s.pulseH + s.cfg.blinkRate * numOf dt
      cur := .dark { d with elapsedTime := d.elapsedTime + numOf dt } } →
    exec (.tick dt) s = .next
      (if s.cfg.flags.getLsbD 0 = true ∧ d.resetTime < d.elapsedTime + numOf dt then
        { u with pend := .starting ⟨0, 0, 0, s.cfg.startAccel, s.cfg.startTargetSpeed⟩, pendValid := true }.respond
          .ok .none
       else u.respond .ok .none)

/-- R162: a TICK that finds Starting current after its swap. -/
def Obligations.TickInStarting : Prop :=
  ∀ (s u v : State) (dt : Q16) (d : StartingData) (new sum : ℚ), s.port = .F → s.inited = true → 0 ≤ numOf dt →
    s.swap.cur = .starting d →
    new = norm360 (d.particlePosition + d.particleSpeed * numOf dt) → sum = d.particleSpeed + d.accel * numOf dt →
    u = { s.swap with pulseH := s.pulseH + s.cfg.blinkRate * numOf dt } →
    v = { (u.drawDecay (4 / 5) 0).drawArc d.particlePosition new true s.pal.primary with
      cur := .starting { d with
        elapsedTime := d.elapsedTime + numOf dt, particlePosition := new, particleSpeed := min sum d.targetSpeed } } →
    exec (.tick dt) s = .next
      (if d.targetSpeed < sum then
        { v with pend := .idle ⟨0, new, d.targetSpeed, s.cfg.advanceTime⟩, pendValid := true }.respond .ok .none
       else v.respond .ok .none)

/-- R164: a TICK that finds Idle current after its swap. -/
def Obligations.TickInIdle : Prop :=
  ∀ (s u v : State) (dt : Q16) (d : IdleData) (new : ℚ), s.port = .F → s.inited = true → 0 ≤ numOf dt →
    s.swap.cur = .idle d →
    new = norm360 (d.particlePosition + d.particleSpeed * numOf dt) →
    u = { s.swap with pulseH := s.pulseH + s.cfg.blinkRate * numOf dt } →
    v = { (u.drawDecay (4 / 5) 0).drawArc d.particlePosition new true s.pal.primary with
      cur := .idle { d with elapsedTime := d.elapsedTime + numOf dt, particlePosition := new } } →
    exec (.tick dt) s = .next
      (if s.cfg.flags.getLsbD 1 = true ∧ d.advanceTime < d.elapsedTime + numOf dt then
        { v with
          pend := .windup ⟨0, new, d.particleSpeed, new, d.particleSpeed / 2, s.cfg.windupAccel,
            s.cfg.windupTargetSpeed⟩
          pendValid := true }.respond .ok .none
       else v.respond .ok .none)

/-- R165, R166: a TICK that finds Windup current after its swap; the collision test is on the values just computed. -/
def Obligations.TickInWindup : Prop :=
  ∀ (s u v : State) (dt : Q16) (d : WindupData) (p1 p2 s1 s2 : ℚ), s.port = .F → s.inited = true → 0 ≤ numOf dt →
    s.swap.cur = .windup d →
    p1 = norm360 (d.firstParticlePosition + d.firstParticleSpeed * numOf dt) →
    p2 = norm360 (d.secondParticlePosition - d.secondParticleSpeed * numOf dt) →
    s1 = min (d.firstParticleSpeed + d.accel * numOf dt) d.targetSpeed →
    s2 = min (d.secondParticleSpeed + d.accel * numOf dt) d.targetSpeed →
    u = { s.swap with pulseH := s.pulseH + s.cfg.blinkRate * numOf dt } →
    v = { u.drawDecay (4 / 5) 0 with
      cur := .windup ⟨d.elapsedTime + numOf dt, p1, s1, p2, s2, d.accel, d.targetSpeed⟩ } →
    exec (.tick dt) s = .next
      (if s2 = d.targetSpeed ∧ p1 - p2 < 5 ∧ ((30 < p1 ∧ p1 < 150) ∨ (210 < p1 ∧ p1 < 330)) then
        { v with pend := .explosion ⟨0, 0, s.cfg.fillRate⟩, pendValid := true }.respond .ok .none
       else
        ((v.drawArc d.firstParticlePosition p1 true s.pal.primary).drawArc
          d.secondParticlePosition p2 false s.pal.secondary).respond .ok .none)

/-- R168: a TICK that finds Explosion current after its swap. -/
def Obligations.TickInExplosion : Prop :=
  ∀ (s u v : State) (dt : Q16) (d : ExplosionData) (sum ratio : ℚ), s.port = .F → s.inited = true → 0 ≤ numOf dt →
    s.swap.cur = .explosion d →
    sum = d.fillRatio + d.fillRate * numOf dt → ratio = min (max sum 0) 1 →
    u = { s.swap with pulseH := s.pulseH + s.cfg.blinkRate * numOf dt } →
    v = { u.drawFill ratio s.pal.fill with
      cur := .explosion ⟨d.elapsedTime + numOf dt, ratio, d.fillRate⟩ } →
    exec (.tick dt) s = .next
      (if 1 < sum then { v with pend := .fade ⟨0, s.cfg.fadeTime⟩, pendValid := true }.respond .ok .none
       else v.respond .ok .none)

/-- R170, R192: a TICK that finds Fade current after its swap; the request for Dark is forced, whatever ALLOW_LOWER. -/
def Obligations.TickInFade : Prop :=
  ∀ (s u v : State) (dt : Q16) (d : FadeData), s.port = .F → s.inited = true → 0 ≤ numOf dt →
    s.swap.cur = .fade d →
    u = { s.swap with pulseH := s.pulseH + s.cfg.blinkRate * numOf dt } →
    v = { u.drawDecay (97 / 100) 0 with cur := .fade { d with elapsedTime := d.elapsedTime + numOf dt } } →
    exec (.tick dt) s = .next
      (if d.targetTime < d.elapsedTime + numOf dt then
        { v with pend := .dark ⟨0, s.cfg.resetTime⟩, pendValid := true }.respond .ok .none
       else v.respond .ok .none)

/-- R39, R72, R157, R158, R261: over an accepted TICK the stage changes to the pending one and to no other, at most
once; its elapsed time and the pulse phase advance by this TICK's dt. -/
def Obligations.TickChangesStageOnlyBySwap : Prop :=
  ∀ (s t : State) (dt : Q16), s.port = .F → s.inited = true → 0 ≤ numOf dt → exec (.tick dt) s = .next t →
    t.cur.tag = (if s.pendValid = true then s.pend.tag else s.cur.tag) ∧
    t.cur.elapsed = (if s.pendValid = true then s.pend.elapsed else s.cur.elapsed) + numOf dt ∧
    t.pulseH = s.pulseH + s.cfg.blinkRate * numOf dt

/-- R156: a TICK that enters Dark leaves every pixel zero and the pulse off; no other TICK changes the pulse flag. -/
def Obligations.TickEnteringDarkClears : Prop :=
  ∀ (s t : State) (dt : Q16), s.port = .F → s.inited = true → 0 ≤ numOf dt → exec (.tick dt) s = .next t →
    (s.pendValid = true → s.pend.tag = .dark → t.pulsing = false ∧
      ∀ k i, k < t.nringsL → i < t.ringSize k → t.pixel k i = Color.black) ∧
    (¬ (s.pendValid = true ∧ s.pend.tag = .dark) → t.pulsing = s.pulsing)

/-- R168, R172: after a TICK no speed exceeds its target; the fill ratio never exceeds 1, does not fall for a rate that
is not negative, and stays 0 from 0 for a negative one. -/
def Obligations.TickKeepsSpeedsAndRatiosInBounds : Prop :=
  ∀ (s t : State) (dt : Q16), s.port = .F → s.inited = true → 0 ≤ numOf dt → exec (.tick dt) s = .next t →
    (∀ d, t.cur = .starting d → d.particleSpeed ≤ d.targetSpeed) ∧
    (∀ d, t.cur = .windup d → d.firstParticleSpeed ≤ d.targetSpeed ∧ d.secondParticleSpeed ≤ d.targetSpeed) ∧
    (∀ d d', s.swap.cur = .explosion d → t.cur = .explosion d' → d.fillRatio ≤ 1 →
      d'.fillRatio ≤ 1 ∧ 0 ≤ d'.fillRatio ∧ (0 ≤ d.fillRate → d.fillRatio ≤ d'.fillRatio) ∧
      (d.fillRate < 0 → d.fillRatio = 0 → d'.fillRatio = 0))

/-- R180: ADVANCE refuses a stage number above 5 and a request that the guard rejects, both with a LOG event, and
otherwise makes the stage pending, on either port. -/
def Obligations.AdvanceGuardsThenMakesPending : Prop :=
  (∀ cw target force, encode cw (.advance target force) = [0x11#8, target, force]) ∧
  ∀ (s : State) (target force : Byte) (v : Bool), s.inited = true → isFlag force v →
    (5 < target.toNat →
      exec (.advance target force) s =
        .next (s.raise ⟨.range, some ⟨.range, target.toNat, s.cur.tag.num⟩⟩)) ∧
    (∀ t : Stage, target.toNat = t.num →
      exec (.advance target force) s =
        if v = false ∧ target.toNat ≤ s.cur.tag.num ∧ s.cfg.flags.getLsbD 2 = false then
          .next (s.raise ⟨.rejected, some ⟨.rejected, target.toNat, s.cur.tag.num⟩⟩)
        else .next ({ s with pend := mkStage s.cfg s.cur t, pendValid := true }.respond .ok .none))

/-- R181, R182: the stage data each target is constructed with, and the continuity fields. -/
def Obligations.StageConstructor : Prop :=
  ∀ (c : Cfg) (cur : StageData),
    mkStage c cur .dark = .dark ⟨0, c.resetTime⟩ ∧
    mkStage c cur .starting = .starting ⟨0, norm360 0, 0, c.startAccel, c.startTargetSpeed⟩ ∧
    mkStage c cur .explosion = .explosion ⟨0, 0, c.fillRate⟩ ∧
    mkStage c cur .fade = .fade ⟨0, c.fadeTime⟩ ∧
    ∀ p v : ℚ,
      (∃ e a g, cur = .starting ⟨e, p, v, a, g⟩) ∨ (∃ e a, cur = .idle ⟨e, p, v, a⟩) ∨
        (∃ e p2 v2 a g, cur = .windup ⟨e, p, v, p2, v2, a, g⟩) ∨
        (p = 0 ∧ v = 0 ∧ (cur.tag = .dark ∨ cur.tag = .explosion ∨ cur.tag = .fade)) →
      mkStage c cur .idle = .idle ⟨0, p, v, c.advanceTime⟩ ∧
      mkStage c cur .windup = .windup ⟨0, p, v, norm360 (p + 0), v / 2, c.windupAccel, c.windupTargetSpeed⟩

/-- R72 (a): a stage requested by an accepted ADVANCE is the current one after the first TICK that follows. -/
def Obligations.AdvancedStageIsCurrentAfterTheNextTick : Prop :=
  ∀ (s u t : State) (stage : Stage) (target force : Byte) (dt : Q16), s.inited = true → 0 ≤ numOf dt →
    target.toNat = stage.num → exec (.advance target force) s = .next u → u.sticky = s.sticky → u.log = s.log →
    exec (.tick dt) { u with port := .F } = .next t →
    (force = 0x00#8 ∨ force = 0x01#8) → (force = 0x01#8 ∨ s.cur.tag.num < target.toNat) →
      u.pendValid = true ∧ u.cur = s.cur ∧ t.cur.tag = stage ∧ t.cur.elapsed = numOf dt

/-- R184: SETPULSE sets the pulsing flag and nothing else, on either port. -/
def Obligations.SetpulseSetsTheFlag : Prop :=
  ∀ (s : State) (flag : Byte) (on : Bool), s.inited = true →
    (isFlag flag on → exec (.setpulse flag) s = .next ({ s with pulsing := on }.respond .ok .none)) ∧
    (1 < flag.toNat → exec (.setpulse flag) s = .next (s.raise ⟨.range, none⟩))

/-- R185: SETPAL writes the three palette entries together, on either port, before INIT as after. -/
def Obligations.SetpalSetsThePalette : Prop :=
  (∀ cw p q f, encode cw (.setpal p q f) = [0x13#8] ++ colBytes cw p ++ colBytes cw q ++ colBytes cw f) ∧
  ∀ (s : State) (primary secondary fill : Color),
    exec (.setpal primary secondary fill) s = .next ({ s with pal := ⟨primary, secondary, fill⟩ }.respond .ok .none)

/-! ### The WENC family -/

/-- R201, R205, R207, R210, R211: ENCODE refuses a segment out of bounds, and otherwise leaves the packet of the
segment: the header, the narrowed pixels in forward or reverse order after the padding, and zero elsewhere. -/
def Obligations.EncodeBuildsThePacket : Prop :=
  (∀ cw ring st ct pad uni net, encode cw (.encode ring st ct pad uni net) =
    [0x20#8, ring] ++ u16Bytes st ++ u16Bytes ct ++ [pad, uni, net]) ∧
  ∀ (s : State) (ring : Byte) (start count : BitVec 16) (pad uni net : Byte) (m : Nat),
    s.port = .F → s.inited = true → m = count.toInt.natAbs →
    (s.nringsL ≤ ring.toNat ∨ s.ringSize ring.toNat < start.toNat + m ∨ 128 < pad.toNat + m →
      exec (.encode ring start count pad uni net) s = .next (s.raise ⟨.range, none⟩)) ∧
    (ring.toNat < s.nringsL → start.toNat + m ≤ s.ringSize ring.toNat → pad.toNat + m ≤ 128 →
      ∃ p u, u = { s with pkt := p } ∧ exec (.encode ring start count pad uni net) s = .next (u.respond .ok .none) ∧
        (∀ o < 8, u.packetByte o = s.build.pktId.getD o 0x00#8) ∧
        u.packetByte 8 = s.build.pktOpcode.extractLsb' 0 8 ∧ u.packetByte 9 = s.build.pktOpcode.extractLsb' 8 8 ∧
        u.packetByte 10 = s.build.pktProtVer.extractLsb' 8 8 ∧ u.packetByte 11 = s.build.pktProtVer.extractLsb' 0 8 ∧
        u.packetByte 12 = 0x00#8 ∧ u.packetByte 13 = 0x00#8 ∧ u.packetByte 14 = uni ∧ u.packetByte 15 = net ∧
        u.packetByte 16 = 0x02#8 ∧ u.packetByte 17 = 0x00#8 ∧
        (∀ j < m,
          let c := s.pixel ring.toNat (if 0 < count.toInt then start.toNat + j else start.toNat + (m - 1) - j)
          let o := 18 + 4 * (pad.toNat + j)
          u.packetByte o = BitVec.ofNat 8 c.r ∧ u.packetByte (o + 1) = BitVec.ofNat 8 c.g ∧
          u.packetByte (o + 2) = BitVec.ofNat 8 c.b ∧ u.packetByte (o + 3) = BitVec.ofNat 8 c.w) ∧
        (∀ o, 18 ≤ o → o < 530 → (o < 18 + 4 * pad.toNat ∨ 18 + 4 * (pad.toNat + m) ≤ o) → u.packetByte o = 0x00#8))

/-- R213: a segment of one pixel builds the same packet forward and reverse. -/
def Obligations.SinglePixelSegmentHasNoDirection : Prop :=
  ∀ (s : State) (ring : Byte) (start : BitVec 16) (pad uni net : Byte),
    exec (.encode ring start 1#16 pad uni net) s = exec (.encode ring start 0xFFFF#16 pad uni net) s

/-- R215: RDPKT answers one byte of the packet, or RANGE beyond it, and writes nothing. -/
def Obligations.RdpktAnswersTheByte : Prop :=
  ∀ (s : State) (off : BitVec 16), s.port = .F → s.inited = true →
    (530 ≤ off.toNat → exec (.rdpkt off) s = .next (s.raise ⟨.range, none⟩)) ∧
    (off.toNat < 530 → exec (.rdpkt off) s = .next (s.respond .ok (.u8 (s.packetByte off.toNat))))

/-! ### The system commands -/

/-- R231: NOP on either port and in any state changes nothing and answers OK. -/
def Obligations.NopAnswersOk : Prop :=
  (∀ cw, encode cw .nop = [0x00#8]) ∧
  ∀ s : State, exec .nop s = .next { s with
    outF := if s.port = .F then s.outF ++ [⟨.ok, .none, [0x00#8]⟩] else s.outF
    outC := if s.port = .C then s.outC ++ [⟨.ok, .none, [0x00#8]⟩] else s.outC }

/-- R233: INIT latches the layout, zeroes the rings that exist and the packet, and enters Dark with nothing pending
and the pulse off; a second INIT is refused. -/
def Obligations.InitEntersTheInitialState : Prop :=
  (∀ cw, encode cw .init = [0x32#8]) ∧
  ∀ s : State, s.port = .F →
    (s.inited = true → exec .init s = .next (s.raise ⟨.badState, none⟩)) ∧
    (s.inited = false → ∃ r0 r1 p u,
      u = { s with
        nringsL := s.cfg.nrings, n0L := s.cfg.n0, n1L := s.cfg.n1, ring0 := r0, ring1 := r1, pkt := p
        pulsing := false, pulseH := 0, cur := .dark ⟨0, s.cfg.resetTime⟩, pendValid := false, inited := true } ∧
      exec .init s = .next (u.respond .ok .none) ∧
      (∀ k i, k < u.nringsL → i < u.ringSize k → u.pixel k i = Color.black) ∧
      (∀ o < 530, u.packetByte o = 0x00#8))

/-- R235: what CFGWR writes, register by register, and what it refuses. -/
def Obligations.CfgwrWritesTheRegister : Prop :=
  (∀ cw, encode cw (.cfgwr 0x12#8 0x00960000#32) = [0x30#8, 0x12#8, 0x00#8, 0x00#8, 0x96#8, 0x00#8]) ∧
  ∀ (s : State) (reg : Byte) (value : BitVec 32) (x : ℚ), s.port = .F → x = (value.toInt : ℚ) / 65536 →
    ((3 < reg.toNat ∧ reg.toNat < 0x10) ∨ 0x18 < reg.toNat →
      exec (.cfgwr reg value) s = .next (s.raise ⟨.range, none⟩)) ∧
    (reg.toNat ≤ 2 → s.inited = true → exec (.cfgwr reg value) s = .next (s.raise ⟨.badState, none⟩)) ∧
    (reg = 0x00#8 → s.inited = false → exec (.cfgwr reg value) s = .next
      (if value.toNat = 1 ∨ value.toNat = 2 then
        { s with cfg := { s.cfg with nrings := value.toNat } }.respond .ok .none
       else s.raise ⟨.range, none⟩)) ∧
    (reg = 0x01#8 → s.inited = false → exec (.cfgwr reg value) s = .next
      (if 1 ≤ value.toNat ∧ value.toNat ≤ s.build.nmax then
        { s with cfg := { s.cfg with n0 := value.toNat } }.respond .ok .none
       else s.raise ⟨.range, none⟩)) ∧
    (reg = 0x02#8 → s.inited = false → exec (.cfgwr reg value) s = .next
      (if 1 ≤ value.toNat ∧ value.toNat ≤ s.build.nmax then
        { s with cfg := { s.cfg with n1 := value.toNat } }.respond .ok .none
       else s.raise ⟨.range, none⟩)) ∧
    (reg = 0x03#8 → exec (.cfgwr reg value) s =
      .next ({ s with cfg := { s.cfg with flags := value.extractLsb' 0 3 } }.respond .ok .none)) ∧
    (reg = 0x10#8 → exec (.cfgwr reg value) s =
      .next ({ s with cfg := { s.cfg with resetTime := x } }.respond .ok .none)) ∧
    (reg = 0x11#8 → exec (.cfgwr reg value) s =
      .next ({ s with cfg := { s.cfg with startAccel := x } }.respond .ok .none)) ∧
    (reg = 0x12#8 → exec (.cfgwr reg value) s =
      .next ({ s with cfg := { s.cfg with startTargetSpeed := x } }.respond .ok .none)) ∧
    (reg = 0x13#8 → exec (.cfgwr reg value) s =
      .next ({ s with cfg := { s.cfg with advanceTime := x } }.respond .ok .none)) ∧
    (reg = 0x14#8 → exec (.cfgwr reg value) s =
      .next ({ s with cfg := { s.cfg with windupAccel := x } }.respond .ok .none)) ∧
    (reg = 0x15#8 → exec (.cfgwr reg value) s =
      .next ({ s with cfg := { s.cfg with windupTargetSpeed := x } }.respond .ok .none)) ∧
    (reg = 0x16#8 → exec (.cfgwr reg value) s =
      .next ({ s with cfg := { s.cfg with fillRate := x } }.respond .ok .none)) ∧
    (reg = 0x17#8 → exec (.cfgwr reg value) s =
      .next ({ s with cfg := { s.cfg with fadeTime := x } }.respond .ok .none)) ∧
    (reg = 0x18#8 → exec (.cfgwr reg value) s =
      .next ({ s with cfg := { s.cfg with blinkRate := x } }.respond .ok .none))

/-- R85, R237: CFGRD answers the register in its encoding and writes nothing; an unimplemented number is refused. -/
def Obligations.CfgrdAnswersTheRegister : Prop :=
  ∀ (s : State) (reg : Byte) (q : ℚ → BitVec 32), s.port = .F → (∀ x, q x = BitVec.ofInt 32 ⌊x * 65536⌋) →
    ((3 < reg.toNat ∧ reg.toNat < 0x10) ∨ 0x18 < reg.toNat →
      exec (.cfgrd reg) s = .next (s.raise ⟨.range, none⟩)) ∧
    ∀ v, (reg = 0x00#8 ∧ v = BitVec.ofNat 32 s.cfg.nrings) ∨ (reg = 0x01#8 ∧ v = BitVec.ofNat 32 s.cfg.n0) ∨
        (reg = 0x02#8 ∧ v = BitVec.ofNat 32 s.cfg.n1) ∨ (reg = 0x03#8 ∧ v = s.cfg.flags.setWidth 32) ∨
        (reg = 0x10#8 ∧ v = q s.cfg.resetTime) ∨ (reg = 0x11#8 ∧ v = q s.cfg.startAccel) ∨
        (reg = 0x12#8 ∧ v = q s.cfg.startTargetSpeed) ∨ (reg = 0x13#8 ∧ v = q s.cfg.advanceTime) ∨
        (reg = 0x14#8 ∧ v = q s.cfg.windupAccel) ∨ (reg = 0x15#8 ∧ v = q s.cfg.windupTargetSpeed) ∨
        (reg = 0x16#8 ∧ v = q s.cfg.fillRate) ∨ (reg = 0x17#8 ∧ v = q s.cfg.fadeTime) ∨
        (reg = 0x18#8 ∧ v = q s.cfg.blinkRate) →
      exec (.cfgrd reg) s = .next (s.respond .ok (.u32 v))

/-- R41, R42, R85: what an accepted CFGWR wrote, CFGRD reads back: the word itself, of FLAGS its three low bits. -/
def Obligations.CfgrdReadsBackWhatCfgwrWrote : Prop :=
  ∀ (s t : State) (reg : Byte) (value : BitVec 32), s.port = .F → exec (.cfgwr reg value) s = .next t →
    t.sticky = s.sticky → ¬ rangeCause s (.cfgwr reg value) → ¬ (s.inited = true ∧ reg.toNat ≤ 2) →
      exec (.cfgrd reg) t = .next (t.respond .ok (.u32 (if reg = 0x03#8 then value &&& 7#32 else value)))

/-- R46, R239: RDSTAT answers the status word, field by field, on either port and in any state, and writes nothing. -/
def Obligations.RdstatAnswersTheStatusWord : Prop :=
  ∀ s : State, ∃ w : BitVec 32, exec .rdstat s = .next (s.respond .ok (.u32 w)) ∧
    w.extractLsb' 0 3 = (if s.inited = true then BitVec.ofNat 3 s.cur.tag.num else 0#3) ∧
    w.getLsbD 3 = s.pendValid ∧
    w.extractLsb' 4 3 = (if s.pendValid = true then BitVec.ofNat 3 s.pend.tag.num else 0#3) ∧
    w.getLsbD 7 = s.pulsing ∧ w.getLsbD 8 = s.inited ∧ w.extractLsb' 9 7 = 0#7 ∧
    w.getLsbD 16 = s.sticky.errReject ∧ w.getLsbD 17 = s.sticky.errRange ∧ w.getLsbD 18 = s.sticky.errOpc ∧
    w.getLsbD 19 = s.sticky.errPort ∧ w.getLsbD 20 = s.sticky.errState ∧ w.extractLsb' 21 11 = 0#11

/-! ### Whole-machine rules -/

/-- R21, R22, R46: over any command a sticky bit and INITED once set stay set, only INIT sets INITED, and only INIT
changes the latched layout, never after INIT. -/
def Obligations.LatchedStateOnlyReleasedByReset : Prop :=
  ∀ (i : Instr) (s t : State), exec i s = .next t →
    (s.sticky.errReject = true → t.sticky.errReject = true) ∧ (s.sticky.errRange = true → t.sticky.errRange = true) ∧
    (s.sticky.errOpc = true → t.sticky.errOpc = true) ∧ (s.sticky.errPort = true → t.sticky.errPort = true) ∧
    (s.sticky.errState = true → t.sticky.errState = true) ∧
    (s.inited = true → t.inited = true) ∧ (i ≠ .init → t.inited = s.inited) ∧
    (i ≠ .init ∨ s.inited = true → t.nringsL = s.nringsL ∧ t.n0L = s.n0L ∧ t.n1L = s.n1L)

/-- R24, R26, R28, R29, R31, R38, R44, R48: each piece of state is written by the commands listed for it and by no
other. -/
def Obligations.StateIsWrittenOnlyByItsWriters : Prop :=
  ∀ (i : Instr) (s t : State), exec i s = .next t →
    (t.ring0 ≠ s.ring0 ∨ t.ring1 ≠ s.ring1 →
      i.opcode ∈ [.clear, .arc, .fill, .decay, .wrpix, .tick, .init]) ∧
    (t.pkt ≠ s.pkt → i.opcode ∈ [.encode, .init]) ∧
    (t.pal ≠ s.pal → i.opcode = .setpal) ∧
    (t.cfg ≠ s.cfg → i.opcode = .cfgwr) ∧
    (t.pulsing ≠ s.pulsing → i.opcode ∈ [.setpulse, .tick, .init]) ∧
    (t.pulseH ≠ s.pulseH → i.opcode ∈ [.tick, .init]) ∧
    (t.cur ≠ s.cur → i.opcode ∈ [.tick, .init]) ∧
    (t.pend ≠ s.pend → i.opcode ∈ [.advance, .tick]) ∧
    (t.pendValid ≠ s.pendValid → i.opcode ∈ [.advance, .tick, .init]) ∧
    (t.log ≠ s.log → i.opcode = .advance) ∧
    t.build = s.build ∧ t.port = s.port ∧ t.inF = s.inF ∧ t.inC = s.inC ∧ t.resetIn = s.resetIn ∧ t.turn = s.turn

/-- R260, R262: whatever command port C issues, it changes the pending slot, PULSING, the palette, the sticky bits, the
LOG and its own responses at most. -/
def Obligations.PortCReachesOnlyItsState : Prop :=
  ∀ (i : Instr) (s t : State), s.port = .C → exec i s = .next t →
    t = { s with
      pend := t.pend, pendValid := t.pendValid, pulsing := t.pulsing, pal := t.pal, sticky := t.sticky
      log := t.log, outC := t.outC }

/-- R280: before INIT no command answers or depends on the layout in force, the rings, the packet, CUR or PEND, and
after an accepted INIT only PEND and a ring that does not exist can still differ. -/
def Obligations.UnspecifiedResetStateIsNotReadable : Prop :=
  ∀ (i : Instr) (s u : State), s.inited = false → s.pendValid = false →
    (∃ nr n0 n1 r0 r1 p c d,
      u = { s with nringsL := nr, n0L := n0, n1L := n1, ring0 := r0, ring1 := r1, pkt := p, cur := c, pend := d }) →
    ∃ t v, exec i s = .next t ∧ exec i u = .next v ∧
      v.outF = t.outF ∧ v.outC = t.outC ∧ v.log = t.log ∧ v.sticky = t.sticky ∧ v.cfg = t.cfg ∧ v.pal = t.pal ∧
      v.inited = t.inited ∧ v.pulsing = t.pulsing ∧ v.pulseH = t.pulseH ∧ v.pendValid = t.pendValid ∧
      (t.inited = true → s.cfg.nrings = 2 → v = { t with pend := v.pend }) ∧
      (t.inited = true → s.cfg.nrings = 1 → v = { t with pend := v.pend, ring1 := v.ring1 })

/-! ### Arithmetic -/

/-- R10: the four laws of the sine, whatever its free values are; and the pulse value lies in [0, 1] (R29). -/
def Obligations.SineLaws : Prop :=
  (∀ h : ℚ, -1 ≤ sinpi h ∧ sinpi h ≤ 1) ∧
  sinpi 0 = 0 ∧ sinpi (1 / 2) = 1 ∧ sinpi 1 = 0 ∧ sinpi (3 / 2) = -1 ∧
  (∀ h : ℚ, sinpi (h + 2) = sinpi h) ∧
  (∀ h : ℚ, 0 ≤ pulseValue h ∧ pulseValue h ≤ 1)

/-- R110: the laws of channel arithmetic. -/
def Obligations.ChannelLaws : Prop :=
  ∀ cw : ChannelWidth,
    (∀ v : Nat, v ≤ cw.cmax → chan cw v = v) ∧
    (∀ x : ℚ, (cw.cmax : ℚ) + 1 ≤ x → chan cw x = cw.cmax) ∧ (∀ x : ℚ, x < 0 → chan cw x = 0) ∧
    (∀ x y : ℚ, x ≤ y → chan cw x ≤ chan cw y) ∧
    (∀ v : Nat, v ≤ cw.cmax → chan cw ((v : ℚ) * 1 + 0) = v) ∧ (∀ v : Nat, chan cw ((v : ℚ) * 0 + 0) = 0) ∧
    (∀ c : Color, c.fits cw → scale cw c 1 = c) ∧ (∀ c : Color, scale cw c 0 = Color.black) ∧
    (∀ (c : Color) (r1 r2 : ℚ), 0 ≤ r1 → r1 ≤ r2 →
      (scale cw c r1).r ≤ (scale cw c r2).r ∧ (scale cw c r1).g ≤ (scale cw c r2).g ∧
      (scale cw c r1).b ≤ (scale cw c r2).b ∧ (scale cw c r1).w ≤ (scale cw c r2).w)

/-! ### The host's side -/

/-- R186, R187, R188: what each control line becomes on port C. Every command is one that a frame can carry. Of a
`Palette` line with a channel above CMAX the spec says nothing (N12): that it gives one SETPAL or no command is the
model's choice (log entry 24). -/
def Obligations.ControlLinesBecomeCommands : Prop :=
  ∀ (cw : ChannelWidth) (status : BitVec 32) (n : Nat) (p : Palette) (line : ControlLine),
    (5 < n → controlCommands cw status (.advanceStage n) = [] ∧
      controlCommands cw status (.advanceStagePulsing n) = []) ∧
    (n ≤ 5 → status.getLsbD 7 = true → controlCommands cw status (.advanceStage n) = [.rdstat]) ∧
    (n ≤ 5 → status.getLsbD 7 = false →
      controlCommands cw status (.advanceStage n) = [.rdstat, .advance (BitVec.ofNat 8 n) 0x00#8]) ∧
    (n ≤ 5 → controlCommands cw status (.advanceStagePulsing n) =
      [.setpulse 0x01#8, .advance (BitVec.ofNat 8 n) 0x00#8]) ∧
    controlCommands cw status .unrecognized = [] ∧
    (p.fits cw → controlCommands cw status (.palette p) = [.setpal p.primary p.secondary p.fill]) ∧
    (¬ p.fits cw → controlCommands cw status (.palette p) = [] ∨
      ∃ q : Palette, q.fits cw ∧ controlCommands cw status (.palette p) = [.setpal q.primary q.secondary q.fill]) ∧
    (∀ i ∈ controlCommands cw status line, i.wf cw = true)
end

