-- ==== Sys2Proof/Laws/Arith.lean ====
section
/-! SUPPORT. Ranges of the numeric functions, of the angle functions and of the pixels an arc names. -/

namespace Sys2Proof.Machine

/-! ### Numbers -/

theorem norm360_nonneg (a : ℚ) : 0 ≤ norm360 a := by
  have h := Int.floor_le (a / 360)
  rw [le_div_iff₀ (by norm_num)] at h
  unfold norm360
  linarith

theorem norm360_lt (a : ℚ) : norm360 a < 360 := by
  have h := Int.lt_floor_add_one (a / 360)
  rw [div_lt_iff₀ (by norm_num)] at h
  unfold norm360
  linarith

theorem norm360_of_mem {a : ℚ} (h0 : 0 ≤ a) (h1 : a < 360) : norm360 a = a := by
  have : ⌊a / 360⌋ = 0 := Int.floor_eq_zero_iff.mpr ⟨by positivity, by rw [div_lt_one (by norm_num)]; exact h1⟩
  simp [norm360, this]

@[simp] theorem norm360_norm360 (a : ℚ) : norm360 (norm360 a) = norm360 a :=
  norm360_of_mem (norm360_nonneg a) (norm360_lt a)

theorem sat_le (cw : ChannelWidth) (v : ℤ) : sat cw v ≤ cw.cmax := by
  unfold sat
  omega

theorem chan_le (cw : ChannelWidth) (x : ℚ) : chan cw x ≤ cw.cmax := sat_le cw _

theorem black_fits (cw : ChannelWidth) : Color.black.fits cw := by simp [Color.fits, Color.black]

theorem scale_fits (cw : ChannelWidth) (c : Color) (r : ℚ) : (scale cw c r).fits cw :=
  ⟨chan_le cw _, chan_le cw _, chan_le cw _, chan_le cw _⟩

theorem decayColor_fits (cw : ChannelWidth) (m a : ℚ) (p : Color) : (decayColor cw m a p).fits cw :=
  ⟨chan_le cw _, chan_le cw _, chan_le cw _, chan_le cw _⟩

theorem maxColor_fits {cw : ChannelWidth} {p t : Color} (hp : p.fits cw) (ht : t.fits cw) :
    (maxColor p t).fits cw :=
  ⟨max_le hp.1 ht.1, max_le hp.2.1 ht.2.1, max_le hp.2.2.1 ht.2.2.1, max_le hp.2.2.2 ht.2.2.2⟩

theorem State.effcol_fits {s : State} {c : Color} (h : c.fits s.build.cw) : (s.effcol c).fits s.build.cw := by
  unfold State.effcol
  split
  · exact scale_fits _ _ _
  · exact h

/-! ### Angles and pixels -/

theorem led_nonneg (n : Nat) (a : ℚ) : 0 ≤ led n a :=
  mul_nonneg (by positivity) (norm360_nonneg a)

theorem led_lt {n : Nat} (hn : 0 < n) (a : ℚ) : led n a < n := by
  have hn' : (0 : ℚ) < n := by exact_mod_cast hn
  have := mul_lt_mul_of_pos_left (norm360_lt a) (show (0 : ℚ) < (n : ℚ) / 360 by positivity)
  unfold led
  calc (n : ℚ) / 360 * norm360 a < (n : ℚ) / 360 * 360 := this
    _ = n := by ring

theorem wholeIndex_lt {n : Nat} (hn : 0 < n) (a : ℚ) : wholeIndex n a < n := by
  have h : ⌊led n a⌋ < (n : ℤ) := Int.floor_lt.mpr (by exact_mod_cast led_lt hn a)
  have h0 : 0 ≤ ⌊led n a⌋ := Int.floor_nonneg.mpr (led_nonneg n a)
  unfold wholeIndex
  omega

theorem boundary_lt {n : Nat} (hn : 0 < n) (iT : Nat) (k : Bool) : boundary n iT k < n := by
  unfold boundary
  have h0 := Int.emod_nonneg ((iT : ℤ) + (if k then 1 else -1)) (show (n : ℤ) ≠ 0 by omega)
  have h1 := Int.emod_lt_of_pos ((iT : ℤ) + (if k then 1 else -1)) (show (0 : ℤ) < n by omega)
  omega

@[simp] theorem mem_rising {lo hi i : Nat} : i ∈ rising lo hi ↔ lo ≤ i ∧ i ≤ hi := by
  simp only [rising, List.mem_range'_1]
  omega

theorem mem_wholes {n iF iT i : Nat} {aF aT : ℚ} {k : Bool} :
    i ∈ wholes n iF iT aF aT k ↔
      if k then
        if aF ≤ aT then iF ≤ i ∧ i ≤ iT else (iF ≤ i ∧ i ≤ n - 1) ∨ i ≤ iT
      else
        if aT ≤ aF then iT ≤ i ∧ i ≤ iF else i ≤ iF ∨ (iT ≤ i ∧ i ≤ n - 1) := by
  unfold wholes
  split <;> split <;> simp

theorem wholes_lt {n : Nat} (hn : 0 < n) {a b aF aT : ℚ} {k : Bool} {i : Nat}
    (h : i ∈ wholes n (wholeIndex n a) (wholeIndex n b) aF aT k) : i < n := by
  have ha := wholeIndex_lt hn a
  have hb := wholeIndex_lt hn b
  rw [mem_wholes] at h
  split at h <;> split at h <;> omega

end Sys2Proof.Machine
end

