-- ==== Sys2Proof/Laws/PerInstr.lean ====
section
/-! SUPPORT. Facts about the commands as syntax, one lemma per constructor. -/

namespace Sys2Proof

/-- Every opcode byte names its opcode (R86). -/
@[simp] theorem Opcode.ofByte_byte (o : Opcode) : Opcode.ofByte o.byte = some o := by cases o <;> decide

@[simp] theorem u16Bytes_length (v : BitVec 16) : (u16Bytes v).length = 2 := rfl

@[simp] theorem u32Bytes_length (v : BitVec 32) : (u32Bytes v).length = 4 := rfl

@[simp] theorem channelBytes_length (cw : ChannelWidth) (v : Nat) : (channelBytes cw v).length = cw.cb := by
  cases cw <;> rfl

@[simp] theorem colBytes_length (cw : ChannelWidth) (c : Color) : (colBytes cw c).length = 4 * cw.cb := by
  simp only [colBytes, List.length_append, channelBytes_length]
  omega

end Sys2Proof

namespace Sys2Proof.Laws

/-- The frame of a command has the length its opcode and `CW` fix (R82, R87). -/
def EncodedLength.Statement (i : Instr) : Prop :=
  ∀ cw : ChannelWidth, (encode cw i).length = i.opcode.frameLength cw

theorem EncodedLength.nop : EncodedLength.Statement .nop := fun _ => rfl
theorem EncodedLength.clear : EncodedLength.Statement .clear := fun _ => rfl
theorem EncodedLength.arc (angleFrom angleTo : Q16) (clockwise : Byte) (color : Color) :
    EncodedLength.Statement (.arc angleFrom angleTo clockwise color) := fun cw => by cases cw <;> rfl
theorem EncodedLength.fill (ratio : Q16) (color : Color) : EncodedLength.Statement (.fill ratio color) :=
  fun cw => by cases cw <;> rfl
theorem EncodedLength.decay (multiplier addition : Q16) : EncodedLength.Statement (.decay multiplier addition) :=
  fun _ => rfl
theorem EncodedLength.a2l (ring : Byte) (angle : Q16) : EncodedLength.Statement (.a2l ring angle) := fun _ => rfl
theorem EncodedLength.rdpix (ring : Byte) (idx : BitVec 16) : EncodedLength.Statement (.rdpix ring idx) := fun _ => rfl
theorem EncodedLength.wrpix (ring : Byte) (idx : BitVec 16) (color : Color) :
    EncodedLength.Statement (.wrpix ring idx color) := fun cw => by cases cw <;> rfl
theorem EncodedLength.tick (dt : Q16) : EncodedLength.Statement (.tick dt) := fun _ => rfl
theorem EncodedLength.advance (target force : Byte) : EncodedLength.Statement (.advance target force) := fun _ => rfl
theorem EncodedLength.setpulse (on : Byte) : EncodedLength.Statement (.setpulse on) := fun _ => rfl
theorem EncodedLength.setpal (primary secondary fill : Color) :
    EncodedLength.Statement (.setpal primary secondary fill) := fun cw => by cases cw <;> rfl
theorem EncodedLength.rdstat : EncodedLength.Statement .rdstat := fun _ => rfl
theorem EncodedLength.encode (ring : Byte) (start count : BitVec 16) (pad uni net : Byte) :
    EncodedLength.Statement (.encode ring start count pad uni net) := fun _ => rfl
theorem EncodedLength.rdpkt (off : BitVec 16) : EncodedLength.Statement (.rdpkt off) := fun _ => rfl
theorem EncodedLength.cfgwr (reg : Byte) (value : BitVec 32) : EncodedLength.Statement (.cfgwr reg value) := fun _ => rfl
theorem EncodedLength.cfgrd (reg : Byte) : EncodedLength.Statement (.cfgrd reg) := fun _ => rfl
theorem EncodedLength.init : EncodedLength.Statement .init := fun _ => rfl

end Sys2Proof.Laws
end

