-- ==== Sys2Proof/Laws/Encoding.lean ====
section
/-! SUPPORT. Operands as bytes: an operand is read as it was written, and written as it was read (R84). -/

namespace Sys2Proof

/-! ### Bytes of a value -/

/-- The two bytes of a 16-bit value, put together again. -/
theorem u16_of_bytes (v : BitVec 16) : (v.extractLsb' 8 8 ++ v.extractLsb' 0 8 : BitVec 16) = v := by
  apply BitVec.eq_of_getLsbD_eq
  intro i h
  simp only [BitVec.getLsbD_append, BitVec.getLsbD_extractLsb']
  by_cases h8 : i < 8
  · simp [h8]
  · simp [h8, show i - 8 < 8 by omega, show 8 + (i - 8) = i by omega]

theorem extract_low (x y : Byte) : (x ++ y).extractLsb' 0 8 = y := by
  apply BitVec.eq_of_getLsbD_eq
  intro i h
  simp only [BitVec.getLsbD_append, BitVec.getLsbD_extractLsb']
  simp [h]

theorem extract_high (x y : Byte) : (x ++ y).extractLsb' 8 8 = x := by
  apply BitVec.eq_of_getLsbD_eq
  intro i h
  simp only [BitVec.getLsbD_append, BitVec.getLsbD_extractLsb']
  simp [h]

/-- The two halves of a 32-bit value, put together again. -/
theorem u32_of_halves (v : BitVec 32) : (v.extractLsb' 16 16 ++ v.extractLsb' 0 16 : BitVec 32) = v := by
  apply BitVec.eq_of_getLsbD_eq
  intro i h
  simp only [BitVec.getLsbD_append, BitVec.getLsbD_extractLsb']
  by_cases h8 : i < 16
  · simp [h8]
  · simp [h8, show i - 16 < 16 by omega, show 16 + (i - 16) = i by omega]

theorem extract_half_low (x y : BitVec 16) : (x ++ y).extractLsb' 0 16 = y := by
  apply BitVec.eq_of_getLsbD_eq
  intro i h
  simp only [BitVec.getLsbD_append, BitVec.getLsbD_extractLsb']
  simp [h]

theorem extract_half_high (x y : BitVec 16) : (x ++ y).extractLsb' 16 16 = x := by
  apply BitVec.eq_of_getLsbD_eq
  intro i h
  simp only [BitVec.getLsbD_append, BitVec.getLsbD_extractLsb']
  simp [h]

/-- The bytes of a 32-bit value are those of its halves. -/
theorem u32Bytes_halves (v : BitVec 32) :
    u32Bytes v = u16Bytes (v.extractLsb' 0 16) ++ u16Bytes (v.extractLsb' 16 16) := by
  simp only [u32Bytes, u16Bytes, List.cons_append, List.nil_append, List.cons.injEq, and_true]
  refine ⟨?_, ?_, ?_, ?_⟩ <;>
  · apply BitVec.eq_of_getLsbD_eq
    intro i h
    simp only [BitVec.getLsbD_extractLsb', h, decide_true, Bool.true_and]
    simp [show i < 16 by omega, show 8 + i < 16 by omega, show 16 + (8 + i) = 24 + i by omega]

/-! ### An operand read where it was written -/

/-- Reading past a prefix is reading the rest. -/
theorem byteAt_append (pre f : Frame) (o : Nat) : byteAt (pre ++ f) (pre.length + o) = byteAt f o := by
  simp [byteAt, List.getD, List.getElem?_append_right]

theorem u16At_append (pre f : Frame) (o : Nat) : u16At (pre ++ f) (pre.length + o) = u16At f o := by
  simp only [u16At, Nat.add_assoc, byteAt_append]

theorem u32At_append (pre f : Frame) (o : Nat) : u32At (pre ++ f) (pre.length + o) = u32At f o := by
  simp only [u32At, Nat.add_assoc, u16At_append]

theorem channelAt_append (cw : ChannelWidth) (pre f : Frame) (o : Nat) :
    channelAt cw (pre ++ f) (pre.length + o) = channelAt cw f o := by
  cases cw
  · exact congrArg BitVec.toNat (byteAt_append pre f o)
  · exact congrArg BitVec.toNat (u16At_append pre f o)

theorem colAt_append (cw : ChannelWidth) (pre f : Frame) (o : Nat) :
    colAt cw (pre ++ f) (pre.length + o) = colAt cw f o := by
  simp only [colAt, Nat.add_assoc, channelAt_append]

theorem u16At_u16Bytes (v : BitVec 16) (f : Frame) : u16At (u16Bytes v ++ f) 0 = v := u16_of_bytes v

theorem u32At_u32Bytes (v : BitVec 32) (f : Frame) : u32At (u32Bytes v ++ f) 0 = v := by
  rw [u32Bytes_halves, List.append_assoc]
  have h := u16At_append (u16Bytes (v.extractLsb' 0 16)) (u16Bytes (v.extractLsb' 16 16) ++ f) 0
  unfold u32At
  rw [u16At_u16Bytes]
  rw [u16At_u16Bytes] at h
  exact (congrArg (· ++ v.extractLsb' 0 16) h).trans (u32_of_halves v)

theorem channelAt_channelBytes (cw : ChannelWidth) (v : Nat) (h : v ≤ cw.cmax) (f : Frame) :
    channelAt cw (channelBytes cw v ++ f) 0 = v := by
  cases cw
  · change (BitVec.ofNat 8 v).toNat = v
    simp only [ChannelWidth.cmax] at h
    simp only [BitVec.toNat_ofNat]
    omega
  · change (u16At (u16Bytes (BitVec.ofNat 16 v) ++ f) 0).toNat = v
    simp only [ChannelWidth.cmax] at h
    rw [u16At_u16Bytes, BitVec.toNat_ofNat]
    omega

/-- A Color of the build is read where it was written (R84). -/
theorem colAt_colBytes (cw : ChannelWidth) (c : Color) (h : c.fits cw) (f : Frame) :
    colAt cw (colBytes cw c ++ f) 0 = c := by
  obtain ⟨hr, hg, hb, hw⟩ := h
  have next : ∀ (v : Nat) (g : Frame) (o : Nat),
      channelAt cw (channelBytes cw v ++ g) (cw.cb + o) = channelAt cw g o := by
    intro v g o
    rw [← channelBytes_length cw v]
    exact channelAt_append cw _ g o
  simp only [colAt, colBytes, List.append_assoc, Nat.zero_add]
  have e1 : cw.cb = cw.cb + 0 := rfl
  have e2 : 2 * cw.cb = cw.cb + (cw.cb + 0) := by omega
  have e3 : 3 * cw.cb = cw.cb + (cw.cb + (cw.cb + 0)) := by omega
  rw [e3, e2, next, next, next, next, next, channelAt_channelBytes cw _ hr, channelAt_channelBytes cw _ hb,
    channelAt_channelBytes cw _ hw]
  conv_lhs => rw [e1, next, channelAt_channelBytes cw _ hg]

/-! ### An operand written as it was read -/

theorem u16Bytes_u16At (f : Frame) (o : Nat) : u16Bytes (u16At f o) = [byteAt f o, byteAt f (o + 1)] := by
  have h := extract_low (byteAt f (o + 1)) (byteAt f o)
  have h' := extract_high (byteAt f (o + 1)) (byteAt f o)
  unfold u16Bytes u16At
  exact congrArg₂ (fun a b => [a, b]) h h'

theorem u32Bytes_u32At (f : Frame) (o : Nat) :
    u32Bytes (u32At f o) = [byteAt f o, byteAt f (o + 1), byteAt f (o + 2), byteAt f (o + 3)] := by
  have h := extract_half_low (u16At f (o + 2)) (u16At f o)
  have h' := extract_half_high (u16At f (o + 2)) (u16At f o)
  rw [u32Bytes_halves]
  refine (congrArg₂ (fun a b => u16Bytes a ++ u16Bytes b) h h').trans ?_
  rw [u16Bytes_u16At, u16Bytes_u16At]
  rfl

theorem channelAt_le (cw : ChannelWidth) (f : Frame) (o : Nat) : channelAt cw f o ≤ cw.cmax := by
  cases cw
  · exact Nat.le_of_lt_succ (byteAt f o).isLt
  · exact Nat.le_of_lt_succ (u16At f o).isLt

/-- A colour operand that was read is a Color of the build (U27). -/
theorem colAt_fits (cw : ChannelWidth) (f : Frame) (o : Nat) : (colAt cw f o).fits cw :=
  ⟨channelAt_le cw f _, channelAt_le cw f _, channelAt_le cw f _, channelAt_le cw f _⟩

theorem channelBytes_channelAt (cw : ChannelWidth) (f : Frame) (o : Nat) :
    channelBytes cw (channelAt cw f o) = (List.range cw.cb).map (fun j => byteAt f (o + j)) := by
  cases cw
  · simp [channelBytes, channelAt, ChannelWidth.cb]
  · simp [channelBytes, channelAt, ChannelWidth.cb, u16Bytes_u16At, List.range_succ]

theorem colBytes_colAt (cw : ChannelWidth) (f : Frame) (o : Nat) :
    colBytes cw (colAt cw f o) = (List.range (4 * cw.cb)).map (fun j => byteAt f (o + j)) := by
  simp only [colBytes, colAt, channelBytes_channelAt]
  cases cw <;> simp [ChannelWidth.cb, List.range_succ, Nat.add_assoc]

end Sys2Proof
end

