-- ==== Sys2Proof/Laws/HostSide.lean ====
section
/-! SUPPORT. What the host's side gives: one lemma per operation that says everything it can do. -/

namespace Sys2Proof.Machine

/-- A clipped colour is one that a `col` operand can hold. -/
theorem clipColor_fits (cw : ChannelWidth) (c : Color) : (clipColor cw c).fits cw :=
  ⟨Nat.min_le_right _ _, Nat.min_le_right _ _, Nat.min_le_right _ _, Nat.min_le_right _ _⟩

/-- A SETPAL is a command that a frame can carry exactly when its palette fits the build. -/
theorem setpalOf_wf (cw : ChannelWidth) (p : Palette) : (setpalOf p).wf cw = true ↔ p.fits cw := by
  simp [setpalOf, Instr.wf, Palette.fits, and_assoc]

/-- A `Palette` line gives the SETPAL it names, or, where it names a channel above CMAX, no command or some SETPAL that
a frame can carry. -/
theorem paletteCommands_cases (cw : ChannelWidth) (p : Palette) :
    (p.fits cw ∧ paletteCommands cw p = [setpalOf p]) ∨
    (¬ p.fits cw ∧ (paletteCommands cw p = [] ∨ ∃ q : Palette, q.fits cw ∧ paletteCommands cw p = [setpalOf q])) := by
  unfold paletteCommands
  split
  · exact .inl ⟨‹_›, rfl⟩
  · refine .inr ⟨‹_›, ?_⟩
    split
    · exact .inl rfl
    · exact .inr ⟨_, ⟨clipColor_fits _ _, clipColor_fits _ _, clipColor_fits _ _⟩, rfl⟩

/-- A channel that fits is less than `2 ^ CW`. -/
theorem lt_two_pow_bits {cw : ChannelWidth} {v : Nat} (h : v ≤ cw.cmax) : v < 2 ^ cw.bits := by
  cases cw <;> simp only [ChannelWidth.cmax, ChannelWidth.bits] at * <;> omega

/-- The lower half of a concatenation adds to the upper half, moved up. -/
theorem toNat_append_eq {n m : Nat} (x : BitVec n) (y : BitVec m) : (x ++ y).toNat = x.toNat * 2 ^ m + y.toNat := by
  rw [BitVec.toNat_append, Nat.shiftLeft_eq, Nat.mul_comm, Nat.two_pow_add_eq_or_of_lt y.isLt]

end Sys2Proof.Machine
end

