-- ==== Sys2Proof/Laws/Memory.lean ====
section
/-! SUPPORT. The laws of the memory operations: what a read gives, and that every operation keeps the canonical form. -/

namespace Sys2Proof.Machine

variable {α : Type} {blank : α} {m : Memory α} {a b n : Nat} {v : α}

/-! ### Reads -/

@[simp] theorem Memory.read_nil : Memory.read blank [] a = blank := rfl

theorem Memory.read_cons {w : α} : Memory.read blank ((b, w) :: m) a = if b = a then w else Memory.read blank m a := rfl

theorem Memory.read_unlisted (h : ∀ c ∈ m, c.1 ≠ a) : Memory.read blank m a = blank := by
  induction m with
  | nil => rfl
  | cons c m ih =>
    rw [Memory.read_cons, if_neg (h c (by simp))]
    exact ih fun d hd => h d (by simp [hd])

theorem Memory.read_place (h : ∀ c ∈ m, c.1 ≠ a) :
    Memory.read blank (Memory.place a v m) b = if b = a then v else Memory.read blank m b := by
  induction m with
  | nil => simp [Memory.place, Memory.read, eq_comm]
  | cons c m ih =>
    have hc : c.1 ≠ a := h c (by simp)
    have ih := ih fun d hd => h d (by simp [hd])
    unfold Memory.place
    split
    · simp [Memory.read_cons, eq_comm]
    · rw [Memory.read_cons, Memory.read_cons, ih]
      by_cases hb : c.1 = b
      · simp [hb, show b ≠ a from hb ▸ hc]
      · simp [hb]

theorem Memory.read_others :
    Memory.read blank (m.filter (fun c => decide (c.1 ≠ a))) b = if b = a then blank else Memory.read blank m b := by
  induction m with
  | nil => simp
  | cons c m ih =>
    by_cases hc : c.1 = a
    · rw [List.filter_cons_of_neg (by simp [hc]), ih, Memory.read_cons]
      by_cases hb : b = a
      · simp [hb]
      · simp [hb, show c.1 ≠ b from fun h => hb (h ▸ hc)]
    · rw [List.filter_cons_of_pos (by simp [hc]), Memory.read_cons, Memory.read_cons, ih]
      by_cases hb : b = a
      · simp [hb, hc]
      · simp [hb]

/-- A read after a write: the value at the address written, the old value at every other address. -/
@[simp] theorem Memory.read_write [DecidableEq α] :
    Memory.read blank (Memory.write blank m a v) b = if b = a then v else Memory.read blank m b := by
  unfold Memory.write
  dsimp only
  split
  · next h => rw [Memory.read_others, h]
  · rw [Memory.read_place (by simp), Memory.read_others]
    by_cases hb : b = a <;> simp [hb]

theorem Memory.read_cells [DecidableEq α] (f : Nat → α) (l : List Nat) :
    Memory.read blank (l.filterMap (fun i => if f i = blank then none else some (i, f i))) a
      = if a ∈ l then f a else blank := by
  induction l with
  | nil => simp
  | cons i l ih =>
    rw [List.filterMap_cons]
    by_cases hi : f i = blank
    · simp only [hi, if_true, ih, List.mem_cons]
      by_cases ha : a = i
      · subst ha; simp [hi]
      · simp [ha]
    · simp only [hi, if_false, Memory.read_cons, ih, List.mem_cons]
      by_cases ha : a = i
      · subst ha; simp
      · simp [ha, Ne.symm ha]

/-- A read of a tabulated memory: the function's value below the end, the blank cell beyond it. -/
@[simp] theorem Memory.read_tabulate [DecidableEq α] (f : Nat → α) :
    Memory.read blank (Memory.tabulate blank n f) a = if a < n then f a else blank := by
  simp [Memory.tabulate, Memory.read_cells]

theorem Memory.read_mem : Memory.read blank m a = blank ∨ (a, Memory.read blank m a) ∈ m := by
  induction m with
  | nil => simp
  | cons c m ih =>
    rw [Memory.read_cons]
    by_cases hc : c.1 = a
    · right; subst hc; simp
    · simp only [hc, if_false]
      exact ih.imp id fun h => List.mem_cons_of_mem _ h

theorem Memory.read_eq_of_mem (h : m.Pairwise (fun x y => x.1 < y.1)) (hc : (a, v) ∈ m) :
    Memory.read blank m a = v := by
  induction m with
  | nil => simp at hc
  | cons c m ih =>
    rw [List.pairwise_cons] at h
    rw [Memory.read_cons]
    rcases List.mem_cons.mp hc with rfl | hc
    · simp
    · rw [if_neg (fun he => by have := h.1 _ hc; simp [he] at this)]
      exact ih h.2 hc

/-! ### The canonical form -/

theorem Memory.wf_nil : Memory.wf blank ([] : Memory α) := by simp [Memory.wf]

theorem Memory.mem_place {c : Nat × α} : c ∈ Memory.place a v m ↔ c = (a, v) ∨ c ∈ m := by
  induction m with
  | nil => simp [Memory.place]
  | cons d m ih =>
    unfold Memory.place
    split
    · simp
    · simp only [List.mem_cons, ih]; tauto

theorem Memory.sorted_place (h : m.Pairwise (fun x y => x.1 < y.1)) (ha : ∀ c ∈ m, c.1 ≠ a) :
    (Memory.place a v m).Pairwise (fun x y => x.1 < y.1) := by
  induction m with
  | nil => simp [Memory.place]
  | cons c m ih =>
    have hca : c.1 ≠ a := ha c (by simp)
    rw [List.pairwise_cons] at h
    unfold Memory.place
    split
    · next hlt =>
      simp only [List.pairwise_cons, List.mem_cons, forall_eq_or_imp]
      exact ⟨⟨hlt, fun d hd => lt_trans hlt (h.1 d hd)⟩, h.1, h.2⟩
    · next hlt =>
      rw [List.pairwise_cons]
      refine ⟨fun d hd => ?_, ih h.2 fun d hd => ha d (by simp [hd])⟩
      rcases Memory.mem_place.mp hd with rfl | hd
      · exact lt_of_le_of_ne (not_lt.mp hlt) hca
      · exact h.1 d hd

/-- A write keeps the canonical form. -/
theorem Memory.wf_write [DecidableEq α] (h : Memory.wf blank m) : Memory.wf blank (Memory.write blank m a v) := by
  have hs : (m.filter (fun c => decide (c.1 ≠ a))).Pairwise (fun x y => x.1 < y.1) := h.1.filter _
  unfold Memory.write
  dsimp only
  split
  · exact ⟨hs, fun c hc => h.2 c (List.mem_filter.mp hc).1⟩
  · next hv =>
    refine ⟨Memory.sorted_place hs (by simp), fun c hc => ?_⟩
    rcases Memory.mem_place.mp hc with rfl | hc
    · exact hv
    · exact h.2 c (List.mem_filter.mp hc).1

/-- A tabulated memory is in canonical form. -/
theorem Memory.wf_tabulate [DecidableEq α] (f : Nat → α) : Memory.wf blank (Memory.tabulate blank n f) := by
  refine ⟨?_, fun c hc => ?_⟩
  · refine List.Pairwise.filterMap (R := (· < ·)) _ ?_ List.pairwise_lt_range
    intro i j hij x hx y hy
    split at hx <;> simp at hx
    split at hy <;> simp at hy
    subst hx hy
    exact hij
  · obtain ⟨i, -, hi⟩ := List.mem_filterMap.mp hc
    split at hi <;> simp at hi
    subst hi
    assumption

/-- A write below the end of a space keeps every cell below it. -/
theorem Memory.below_write [DecidableEq α] (h : Memory.below n m) (ha : a < n) :
    Memory.below n (Memory.write blank m a v) := by
  intro c hc
  unfold Memory.write at hc
  dsimp only at hc
  split at hc
  · exact h c (List.mem_filter.mp hc).1
  · rcases Memory.mem_place.mp hc with rfl | hc
    · exact ha
    · exact h c (List.mem_filter.mp hc).1

theorem Memory.below_tabulate [DecidableEq α] (f : Nat → α) :
    Memory.below n (Memory.tabulate blank n f) := by
  intro c hc
  obtain ⟨i, hi, hc⟩ := List.mem_filterMap.mp hc
  split at hc <;> simp at hc
  subst hc
  exact List.mem_range.mp hi

/-- What holds of every listed cell and of the value written holds of every cell after a write. -/
theorem Memory.forall_write [DecidableEq α] {p : α → Prop} (h : ∀ c ∈ m, p c.2) (hv : p v) :
    ∀ c ∈ Memory.write blank m a v, p c.2 := by
  intro c hc
  unfold Memory.write at hc
  dsimp only at hc
  split at hc
  · exact h c (List.mem_filter.mp hc).1
  · rcases Memory.mem_place.mp hc with rfl | hc
    · exact hv
    · exact h c (List.mem_filter.mp hc).1

theorem Memory.forall_tabulate [DecidableEq α] {p : α → Prop} (f : Nat → α) (h : ∀ i < n, p (f i)) :
    ∀ c ∈ Memory.tabulate blank n f, p c.2 := by
  intro c hc
  obtain ⟨i, hi, hc⟩ := List.mem_filterMap.mp hc
  split at hc <;> simp at hc
  subst hc
  exact h i (List.mem_range.mp hi)

theorem Memory.forall_read {p : α → Prop} (hb : p blank) (h : ∀ c ∈ m, p c.2) : p (Memory.read blank m a) := by
  rcases Memory.read_mem (blank := blank) (m := m) (a := a) with h' | h'
  · rw [h']; exact hb
  · exact h _ h'

/-- In canonical form, memories that read alike are equal. -/
theorem Memory.eq_of_reads {m₁ m₂ : Memory α} (h₁ : Memory.wf blank m₁) (h₂ : Memory.wf blank m₂)
    (h : ∀ a, Memory.read blank m₁ a = Memory.read blank m₂ a) : m₁ = m₂ := by
  have key : ∀ {x y : Memory α}, Memory.wf blank x → (∀ a, Memory.read blank x a = Memory.read blank y a) →
      ∀ c ∈ x, c ∈ y := by
    intro x y hx hr c hc
    have hv := Memory.read_eq_of_mem (blank := blank) hx.1 (a := c.1) (v := c.2) hc
    rcases Memory.read_mem (blank := blank) (m := y) (a := c.1) with h' | h'
    · exact absurd (hv ▸ hr c.1 ▸ h') (hx.2 c hc)
    · rwa [← hr, hv] at h'
  refine List.Pairwise.eq_of_mem_iff (r := fun x y : Nat × α => x.1 < y.1) h₁.1 h₂.1 fun c =>
    ⟨key h₁ h c, key h₂ (fun a => (h a).symm) c⟩

/-- A fold of writes of one value: that value at the addresses written, the old value elsewhere. -/
theorem Memory.read_foldl_write [DecidableEq α] (l : List Nat) (m : Memory α) :
    Memory.read blank (l.foldl (fun m i => Memory.write blank m i v) m) a
      = if a ∈ l then v else Memory.read blank m a := by
  induction l generalizing m with
  | nil => simp
  | cons i l ih =>
    rw [List.foldl_cons, ih, Memory.read_write]
    by_cases h : a ∈ l <;> by_cases hi : a = i <;> simp [h, hi]

end Sys2Proof.Machine
end

