-- ==== Sys2Proof/Laws/State.lean ====
section
/-! SUPPORT. One lemma per field per update of `State`: no later proof unfolds a record update. -/

namespace Sys2Proof.Machine

variable (s : State)

/-! ### `respond` -/

@[simp] theorem State.respond_inited (c : RespCode) (r : Result) : (s.respond c r).inited = s.inited := rfl
@[simp] theorem State.respond_nringsL (c : RespCode) (r : Result) : (s.respond c r).nringsL = s.nringsL := rfl
@[simp] theorem State.respond_n0L (c : RespCode) (r : Result) : (s.respond c r).n0L = s.n0L := rfl
@[simp] theorem State.respond_n1L (c : RespCode) (r : Result) : (s.respond c r).n1L = s.n1L := rfl
@[simp] theorem State.respond_ring0 (c : RespCode) (r : Result) : (s.respond c r).ring0 = s.ring0 := rfl
@[simp] theorem State.respond_ring1 (c : RespCode) (r : Result) : (s.respond c r).ring1 = s.ring1 := rfl
@[simp] theorem State.respond_pal (c : RespCode) (r : Result) : (s.respond c r).pal = s.pal := rfl
@[simp] theorem State.respond_pulsing (c : RespCode) (r : Result) : (s.respond c r).pulsing = s.pulsing := rfl
@[simp] theorem State.respond_pulseH (c : RespCode) (r : Result) : (s.respond c r).pulseH = s.pulseH := rfl
@[simp] theorem State.respond_cur (c : RespCode) (r : Result) : (s.respond c r).cur = s.cur := rfl
@[simp] theorem State.respond_pend (c : RespCode) (r : Result) : (s.respond c r).pend = s.pend := rfl
@[simp] theorem State.respond_pendValid (c : RespCode) (r : Result) : (s.respond c r).pendValid = s.pendValid := rfl
@[simp] theorem State.respond_cfg (c : RespCode) (r : Result) : (s.respond c r).cfg = s.cfg := rfl
@[simp] theorem State.respond_sticky (c : RespCode) (r : Result) : (s.respond c r).sticky = s.sticky := rfl
@[simp] theorem State.respond_pkt (c : RespCode) (r : Result) : (s.respond c r).pkt = s.pkt := rfl
@[simp] theorem State.respond_build (c : RespCode) (r : Result) : (s.respond c r).build = s.build := rfl
@[simp] theorem State.respond_port (c : RespCode) (r : Result) : (s.respond c r).port = s.port := rfl
@[simp] theorem State.respond_inF (c : RespCode) (r : Result) : (s.respond c r).inF = s.inF := rfl
@[simp] theorem State.respond_inC (c : RespCode) (r : Result) : (s.respond c r).inC = s.inC := rfl
@[simp] theorem State.respond_outF (c : RespCode) (r : Result) : (s.respond c r).outF = if s.port = .F then s.outF ++ [Response.of s.build.cw c r] else s.outF := rfl
@[simp] theorem State.respond_outC (c : RespCode) (r : Result) : (s.respond c r).outC = if s.port = .C then s.outC ++ [Response.of s.build.cw c r] else s.outC := rfl
@[simp] theorem State.respond_log (c : RespCode) (r : Result) : (s.respond c r).log = s.log := rfl
@[simp] theorem State.respond_resetIn (c : RespCode) (r : Result) : (s.respond c r).resetIn = s.resetIn := rfl
@[simp] theorem State.respond_turn (c : RespCode) (r : Result) : (s.respond c r).turn = s.turn := rfl

/-! ### `raise` -/

@[simp] theorem State.raise_inited (e : Raised) : (s.raise e).inited = s.inited := rfl
@[simp] theorem State.raise_nringsL (e : Raised) : (s.raise e).nringsL = s.nringsL := rfl
@[simp] theorem State.raise_n0L (e : Raised) : (s.raise e).n0L = s.n0L := rfl
@[simp] theorem State.raise_n1L (e : Raised) : (s.raise e).n1L = s.n1L := rfl
@[simp] theorem State.raise_ring0 (e : Raised) : (s.raise e).ring0 = s.ring0 := rfl
@[simp] theorem State.raise_ring1 (e : Raised) : (s.raise e).ring1 = s.ring1 := rfl
@[simp] theorem State.raise_pal (e : Raised) : (s.raise e).pal = s.pal := rfl
@[simp] theorem State.raise_pulsing (e : Raised) : (s.raise e).pulsing = s.pulsing := rfl
@[simp] theorem State.raise_pulseH (e : Raised) : (s.raise e).pulseH = s.pulseH := rfl
@[simp] theorem State.raise_cur (e : Raised) : (s.raise e).cur = s.cur := rfl
@[simp] theorem State.raise_pend (e : Raised) : (s.raise e).pend = s.pend := rfl
@[simp] theorem State.raise_pendValid (e : Raised) : (s.raise e).pendValid = s.pendValid := rfl
@[simp] theorem State.raise_cfg (e : Raised) : (s.raise e).cfg = s.cfg := rfl
@[simp] theorem State.raise_sticky (e : Raised) : (s.raise e).sticky = s.sticky.set e.code := rfl
@[simp] theorem State.raise_pkt (e : Raised) : (s.raise e).pkt = s.pkt := rfl
@[simp] theorem State.raise_build (e : Raised) : (s.raise e).build = s.build := rfl
@[simp] theorem State.raise_port (e : Raised) : (s.raise e).port = s.port := rfl
@[simp] theorem State.raise_inF (e : Raised) : (s.raise e).inF = s.inF := rfl
@[simp] theorem State.raise_inC (e : Raised) : (s.raise e).inC = s.inC := rfl
@[simp] theorem State.raise_outF (e : Raised) : (s.raise e).outF = if s.port = .F then s.outF ++ [Response.of s.build.cw e.code .none] else s.outF := rfl
@[simp] theorem State.raise_outC (e : Raised) : (s.raise e).outC = if s.port = .C then s.outC ++ [Response.of s.build.cw e.code .none] else s.outC := rfl
@[simp] theorem State.raise_log (e : Raised) : (s.raise e).log = s.log ++ e.event.toList := rfl
@[simp] theorem State.raise_resetIn (e : Raised) : (s.raise e).resetIn = s.resetIn := rfl
@[simp] theorem State.raise_turn (e : Raised) : (s.raise e).turn = s.turn := rfl

/-! ### `setRing` -/

@[simp] theorem State.setRing_inited (k : Nat) (m : Memory Color) : (s.setRing k m).inited = s.inited := rfl
@[simp] theorem State.setRing_nringsL (k : Nat) (m : Memory Color) : (s.setRing k m).nringsL = s.nringsL := rfl
@[simp] theorem State.setRing_n0L (k : Nat) (m : Memory Color) : (s.setRing k m).n0L = s.n0L := rfl
@[simp] theorem State.setRing_n1L (k : Nat) (m : Memory Color) : (s.setRing k m).n1L = s.n1L := rfl
@[simp] theorem State.setRing_ring0 (k : Nat) (m : Memory Color) : (s.setRing k m).ring0 = if k = 0 then m else s.ring0 := rfl
@[simp] theorem State.setRing_ring1 (k : Nat) (m : Memory Color) : (s.setRing k m).ring1 = if k = 0 then s.ring1 else m := rfl
@[simp] theorem State.setRing_pal (k : Nat) (m : Memory Color) : (s.setRing k m).pal = s.pal := rfl
@[simp] theorem State.setRing_pulsing (k : Nat) (m : Memory Color) : (s.setRing k m).pulsing = s.pulsing := rfl
@[simp] theorem State.setRing_pulseH (k : Nat) (m : Memory Color) : (s.setRing k m).pulseH = s.pulseH := rfl
@[simp] theorem State.setRing_cur (k : Nat) (m : Memory Color) : (s.setRing k m).cur = s.cur := rfl
@[simp] theorem State.setRing_pend (k : Nat) (m : Memory Color) : (s.setRing k m).pend = s.pend := rfl
@[simp] theorem State.setRing_pendValid (k : Nat) (m : Memory Color) : (s.setRing k m).pendValid = s.pendValid := rfl
@[simp] theorem State.setRing_cfg (k : Nat) (m : Memory Color) : (s.setRing k m).cfg = s.cfg := rfl
@[simp] theorem State.setRing_sticky (k : Nat) (m : Memory Color) : (s.setRing k m).sticky = s.sticky := rfl
@[simp] theorem State.setRing_pkt (k : Nat) (m : Memory Color) : (s.setRing k m).pkt = s.pkt := rfl
@[simp] theorem State.setRing_build (k : Nat) (m : Memory Color) : (s.setRing k m).build = s.build := rfl
@[simp] theorem State.setRing_port (k : Nat) (m : Memory Color) : (s.setRing k m).port = s.port := rfl
@[simp] theorem State.setRing_inF (k : Nat) (m : Memory Color) : (s.setRing k m).inF = s.inF := rfl
@[simp] theorem State.setRing_inC (k : Nat) (m : Memory Color) : (s.setRing k m).inC = s.inC := rfl
@[simp] theorem State.setRing_outF (k : Nat) (m : Memory Color) : (s.setRing k m).outF = s.outF := rfl
@[simp] theorem State.setRing_outC (k : Nat) (m : Memory Color) : (s.setRing k m).outC = s.outC := rfl
@[simp] theorem State.setRing_log (k : Nat) (m : Memory Color) : (s.setRing k m).log = s.log := rfl
@[simp] theorem State.setRing_resetIn (k : Nat) (m : Memory Color) : (s.setRing k m).resetIn = s.resetIn := rfl
@[simp] theorem State.setRing_turn (k : Nat) (m : Memory Color) : (s.setRing k m).turn = s.turn := rfl

/-! ### `onRings` -/

@[simp] theorem State.onRings_inited (f : Nat → Memory Color → Memory Color) : (s.onRings f).inited = s.inited := rfl
@[simp] theorem State.onRings_nringsL (f : Nat → Memory Color → Memory Color) : (s.onRings f).nringsL = s.nringsL := rfl
@[simp] theorem State.onRings_n0L (f : Nat → Memory Color → Memory Color) : (s.onRings f).n0L = s.n0L := rfl
@[simp] theorem State.onRings_n1L (f : Nat → Memory Color → Memory Color) : (s.onRings f).n1L = s.n1L := rfl
@[simp] theorem State.onRings_ring0 (f : Nat → Memory Color → Memory Color) : (s.onRings f).ring0 = if 0 < s.nringsL then f s.n0L s.ring0 else s.ring0 := rfl
@[simp] theorem State.onRings_ring1 (f : Nat → Memory Color → Memory Color) : (s.onRings f).ring1 = if 1 < s.nringsL then f s.n1L s.ring1 else s.ring1 := rfl
@[simp] theorem State.onRings_pal (f : Nat → Memory Color → Memory Color) : (s.onRings f).pal = s.pal := rfl
@[simp] theorem State.onRings_pulsing (f : Nat → Memory Color → Memory Color) : (s.onRings f).pulsing = s.pulsing := rfl
@[simp] theorem State.onRings_pulseH (f : Nat → Memory Color → Memory Color) : (s.onRings f).pulseH = s.pulseH := rfl
@[simp] theorem State.onRings_cur (f : Nat → Memory Color → Memory Color) : (s.onRings f).cur = s.cur := rfl
@[simp] theorem State.onRings_pend (f : Nat → Memory Color → Memory Color) : (s.onRings f).pend = s.pend := rfl
@[simp] theorem State.onRings_pendValid (f : Nat → Memory Color → Memory Color) : (s.onRings f).pendValid = s.pendValid := rfl
@[simp] theorem State.onRings_cfg (f : Nat → Memory Color → Memory Color) : (s.onRings f).cfg = s.cfg := rfl
@[simp] theorem State.onRings_sticky (f : Nat → Memory Color → Memory Color) : (s.onRings f).sticky = s.sticky := rfl
@[simp] theorem State.onRings_pkt (f : Nat → Memory Color → Memory Color) : (s.onRings f).pkt = s.pkt := rfl
@[simp] theorem State.onRings_build (f : Nat → Memory Color → Memory Color) : (s.onRings f).build = s.build := rfl
@[simp] theorem State.onRings_port (f : Nat → Memory Color → Memory Color) : (s.onRings f).port = s.port := rfl
@[simp] theorem State.onRings_inF (f : Nat → Memory Color → Memory Color) : (s.onRings f).inF = s.inF := rfl
@[simp] theorem State.onRings_inC (f : Nat → Memory Color → Memory Color) : (s.onRings f).inC = s.inC := rfl
@[simp] theorem State.onRings_outF (f : Nat → Memory Color → Memory Color) : (s.onRings f).outF = s.outF := rfl
@[simp] theorem State.onRings_outC (f : Nat → Memory Color → Memory Color) : (s.onRings f).outC = s.outC := rfl
@[simp] theorem State.onRings_log (f : Nat → Memory Color → Memory Color) : (s.onRings f).log = s.log := rfl
@[simp] theorem State.onRings_resetIn (f : Nat → Memory Color → Memory Color) : (s.onRings f).resetIn = s.resetIn := rfl
@[simp] theorem State.onRings_turn (f : Nat → Memory Color → Memory Color) : (s.onRings f).turn = s.turn := rfl

/-! ### `drawArc` -/

@[simp] theorem State.drawArc_inited (a b : ℚ) (k : Bool) (c : Color) : (s.drawArc a b k c).inited = s.inited := rfl
@[simp] theorem State.drawArc_nringsL (a b : ℚ) (k : Bool) (c : Color) : (s.drawArc a b k c).nringsL = s.nringsL := rfl
@[simp] theorem State.drawArc_n0L (a b : ℚ) (k : Bool) (c : Color) : (s.drawArc a b k c).n0L = s.n0L := rfl
@[simp] theorem State.drawArc_n1L (a b : ℚ) (k : Bool) (c : Color) : (s.drawArc a b k c).n1L = s.n1L := rfl
@[simp] theorem State.drawArc_pal (a b : ℚ) (k : Bool) (c : Color) : (s.drawArc a b k c).pal = s.pal := rfl
@[simp] theorem State.drawArc_pulsing (a b : ℚ) (k : Bool) (c : Color) : (s.drawArc a b k c).pulsing = s.pulsing := rfl
@[simp] theorem State.drawArc_pulseH (a b : ℚ) (k : Bool) (c : Color) : (s.drawArc a b k c).pulseH = s.pulseH := rfl
@[simp] theorem State.drawArc_cur (a b : ℚ) (k : Bool) (c : Color) : (s.drawArc a b k c).cur = s.cur := rfl
@[simp] theorem State.drawArc_pend (a b : ℚ) (k : Bool) (c : Color) : (s.drawArc a b k c).pend = s.pend := rfl
@[simp] theorem State.drawArc_pendValid (a b : ℚ) (k : Bool) (c : Color) : (s.drawArc a b k c).pendValid = s.pendValid := rfl
@[simp] theorem State.drawArc_cfg (a b : ℚ) (k : Bool) (c : Color) : (s.drawArc a b k c).cfg = s.cfg := rfl
@[simp] theorem State.drawArc_sticky (a b : ℚ) (k : Bool) (c : Color) : (s.drawArc a b k c).sticky = s.sticky := rfl
@[simp] theorem State.drawArc_pkt (a b : ℚ) (k : Bool) (c : Color) : (s.drawArc a b k c).pkt = s.pkt := rfl
@[simp] theorem State.drawArc_build (a b : ℚ) (k : Bool) (c : Color) : (s.drawArc a b k c).build = s.build := rfl
@[simp] theorem State.drawArc_port (a b : ℚ) (k : Bool) (c : Color) : (s.drawArc a b k c).port = s.port := rfl
@[simp] theorem State.drawArc_inF (a b : ℚ) (k : Bool) (c : Color) : (s.drawArc a b k c).inF = s.inF := rfl
@[simp] theorem State.drawArc_inC (a b : ℚ) (k : Bool) (c : Color) : (s.drawArc a b k c).inC = s.inC := rfl
@[simp] theorem State.drawArc_outF (a b : ℚ) (k : Bool) (c : Color) : (s.drawArc a b k c).outF = s.outF := rfl
@[simp] theorem State.drawArc_outC (a b : ℚ) (k : Bool) (c : Color) : (s.drawArc a b k c).outC = s.outC := rfl
@[simp] theorem State.drawArc_log (a b : ℚ) (k : Bool) (c : Color) : (s.drawArc a b k c).log = s.log := rfl
@[simp] theorem State.drawArc_resetIn (a b : ℚ) (k : Bool) (c : Color) : (s.drawArc a b k c).resetIn = s.resetIn := rfl
@[simp] theorem State.drawArc_turn (a b : ℚ) (k : Bool) (c : Color) : (s.drawArc a b k c).turn = s.turn := rfl

/-! ### `drawFill` -/

@[simp] theorem State.drawFill_inited (r : ℚ) (c : Color) : (s.drawFill r c).inited = s.inited := rfl
@[simp] theorem State.drawFill_nringsL (r : ℚ) (c : Color) : (s.drawFill r c).nringsL = s.nringsL := rfl
@[simp] theorem State.drawFill_n0L (r : ℚ) (c : Color) : (s.drawFill r c).n0L = s.n0L := rfl
@[simp] theorem State.drawFill_n1L (r : ℚ) (c : Color) : (s.drawFill r c).n1L = s.n1L := rfl
@[simp] theorem State.drawFill_pal (r : ℚ) (c : Color) : (s.drawFill r c).pal = s.pal := rfl
@[simp] theorem State.drawFill_pulsing (r : ℚ) (c : Color) : (s.drawFill r c).pulsing = s.pulsing := rfl
@[simp] theorem State.drawFill_pulseH (r : ℚ) (c : Color) : (s.drawFill r c).pulseH = s.pulseH := rfl
@[simp] theorem State.drawFill_cur (r : ℚ) (c : Color) : (s.drawFill r c).cur = s.cur := rfl
@[simp] theorem State.drawFill_pend (r : ℚ) (c : Color) : (s.drawFill r c).pend = s.pend := rfl
@[simp] theorem State.drawFill_pendValid (r : ℚ) (c : Color) : (s.drawFill r c).pendValid = s.pendValid := rfl
@[simp] theorem State.drawFill_cfg (r : ℚ) (c : Color) : (s.drawFill r c).cfg = s.cfg := rfl
@[simp] theorem State.drawFill_sticky (r : ℚ) (c : Color) : (s.drawFill r c).sticky = s.sticky := rfl
@[simp] theorem State.drawFill_pkt (r : ℚ) (c : Color) : (s.drawFill r c).pkt = s.pkt := rfl
@[simp] theorem State.drawFill_build (r : ℚ) (c : Color) : (s.drawFill r c).build = s.build := rfl
@[simp] theorem State.drawFill_port (r : ℚ) (c : Color) : (s.drawFill r c).port = s.port := rfl
@[simp] theorem State.drawFill_inF (r : ℚ) (c : Color) : (s.drawFill r c).inF = s.inF := rfl
@[simp] theorem State.drawFill_inC (r : ℚ) (c : Color) : (s.drawFill r c).inC = s.inC := rfl
@[simp] theorem State.drawFill_outF (r : ℚ) (c : Color) : (s.drawFill r c).outF = s.outF := rfl
@[simp] theorem State.drawFill_outC (r : ℚ) (c : Color) : (s.drawFill r c).outC = s.outC := rfl
@[simp] theorem State.drawFill_log (r : ℚ) (c : Color) : (s.drawFill r c).log = s.log := rfl
@[simp] theorem State.drawFill_resetIn (r : ℚ) (c : Color) : (s.drawFill r c).resetIn = s.resetIn := rfl
@[simp] theorem State.drawFill_turn (r : ℚ) (c : Color) : (s.drawFill r c).turn = s.turn := rfl

/-! ### `drawDecay` -/

@[simp] theorem State.drawDecay_inited (m a : ℚ) : (s.drawDecay m a).inited = s.inited := rfl
@[simp] theorem State.drawDecay_nringsL (m a : ℚ) : (s.drawDecay m a).nringsL = s.nringsL := rfl
@[simp] theorem State.drawDecay_n0L (m a : ℚ) : (s.drawDecay m a).n0L = s.n0L := rfl
@[simp] theorem State.drawDecay_n1L (m a : ℚ) : (s.drawDecay m a).n1L = s.n1L := rfl
@[simp] theorem State.drawDecay_pal (m a : ℚ) : (s.drawDecay m a).pal = s.pal := rfl
@[simp] theorem State.drawDecay_pulsing (m a : ℚ) : (s.drawDecay m a).pulsing = s.pulsing := rfl
@[simp] theorem State.drawDecay_pulseH (m a : ℚ) : (s.drawDecay m a).pulseH = s.pulseH := rfl
@[simp] theorem State.drawDecay_cur (m a : ℚ) : (s.drawDecay m a).cur = s.cur := rfl
@[simp] theorem State.drawDecay_pend (m a : ℚ) : (s.drawDecay m a).pend = s.pend := rfl
@[simp] theorem State.drawDecay_pendValid (m a : ℚ) : (s.drawDecay m a).pendValid = s.pendValid := rfl
@[simp] theorem State.drawDecay_cfg (m a : ℚ) : (s.drawDecay m a).cfg = s.cfg := rfl
@[simp] theorem State.drawDecay_sticky (m a : ℚ) : (s.drawDecay m a).sticky = s.sticky := rfl
@[simp] theorem State.drawDecay_pkt (m a : ℚ) : (s.drawDecay m a).pkt = s.pkt := rfl
@[simp] theorem State.drawDecay_build (m a : ℚ) : (s.drawDecay m a).build = s.build := rfl
@[simp] theorem State.drawDecay_port (m a : ℚ) : (s.drawDecay m a).port = s.port := rfl
@[simp] theorem State.drawDecay_inF (m a : ℚ) : (s.drawDecay m a).inF = s.inF := rfl
@[simp] theorem State.drawDecay_inC (m a : ℚ) : (s.drawDecay m a).inC = s.inC := rfl
@[simp] theorem State.drawDecay_outF (m a : ℚ) : (s.drawDecay m a).outF = s.outF := rfl
@[simp] theorem State.drawDecay_outC (m a : ℚ) : (s.drawDecay m a).outC = s.outC := rfl
@[simp] theorem State.drawDecay_log (m a : ℚ) : (s.drawDecay m a).log = s.log := rfl
@[simp] theorem State.drawDecay_resetIn (m a : ℚ) : (s.drawDecay m a).resetIn = s.resetIn := rfl
@[simp] theorem State.drawDecay_turn (m a : ℚ) : (s.drawDecay m a).turn = s.turn := rfl

/-! ### `drawClear` -/

@[simp] theorem State.drawClear_inited : (s.drawClear).inited = s.inited := rfl
@[simp] theorem State.drawClear_nringsL : (s.drawClear).nringsL = s.nringsL := rfl
@[simp] theorem State.drawClear_n0L : (s.drawClear).n0L = s.n0L := rfl
@[simp] theorem State.drawClear_n1L : (s.drawClear).n1L = s.n1L := rfl
@[simp] theorem State.drawClear_pal : (s.drawClear).pal = s.pal := rfl
@[simp] theorem State.drawClear_pulsing : (s.drawClear).pulsing = s.pulsing := rfl
@[simp] theorem State.drawClear_pulseH : (s.drawClear).pulseH = s.pulseH := rfl
@[simp] theorem State.drawClear_cur : (s.drawClear).cur = s.cur := rfl
@[simp] theorem State.drawClear_pend : (s.drawClear).pend = s.pend := rfl
@[simp] theorem State.drawClear_pendValid : (s.drawClear).pendValid = s.pendValid := rfl
@[simp] theorem State.drawClear_cfg : (s.drawClear).cfg = s.cfg := rfl
@[simp] theorem State.drawClear_sticky : (s.drawClear).sticky = s.sticky := rfl
@[simp] theorem State.drawClear_pkt : (s.drawClear).pkt = s.pkt := rfl
@[simp] theorem State.drawClear_build : (s.drawClear).build = s.build := rfl
@[simp] theorem State.drawClear_port : (s.drawClear).port = s.port := rfl
@[simp] theorem State.drawClear_inF : (s.drawClear).inF = s.inF := rfl
@[simp] theorem State.drawClear_inC : (s.drawClear).inC = s.inC := rfl
@[simp] theorem State.drawClear_outF : (s.drawClear).outF = s.outF := rfl
@[simp] theorem State.drawClear_outC : (s.drawClear).outC = s.outC := rfl
@[simp] theorem State.drawClear_log : (s.drawClear).log = s.log := rfl
@[simp] theorem State.drawClear_resetIn : (s.drawClear).resetIn = s.resetIn := rfl
@[simp] theorem State.drawClear_turn : (s.drawClear).turn = s.turn := rfl

/-! ### `setPending` -/

@[simp] theorem State.setPending_inited (t : Stage) : (s.setPending t).inited = s.inited := rfl
@[simp] theorem State.setPending_nringsL (t : Stage) : (s.setPending t).nringsL = s.nringsL := rfl
@[simp] theorem State.setPending_n0L (t : Stage) : (s.setPending t).n0L = s.n0L := rfl
@[simp] theorem State.setPending_n1L (t : Stage) : (s.setPending t).n1L = s.n1L := rfl
@[simp] theorem State.setPending_ring0 (t : Stage) : (s.setPending t).ring0 = s.ring0 := rfl
@[simp] theorem State.setPending_ring1 (t : Stage) : (s.setPending t).ring1 = s.ring1 := rfl
@[simp] theorem State.setPending_pal (t : Stage) : (s.setPending t).pal = s.pal := rfl
@[simp] theorem State.setPending_pulsing (t : Stage) : (s.setPending t).pulsing = s.pulsing := rfl
@[simp] theorem State.setPending_pulseH (t : Stage) : (s.setPending t).pulseH = s.pulseH := rfl
@[simp] theorem State.setPending_cur (t : Stage) : (s.setPending t).cur = s.cur := rfl
@[simp] theorem State.setPending_pend (t : Stage) : (s.setPending t).pend = mkStage s.cfg s.cur t := rfl
@[simp] theorem State.setPending_pendValid (t : Stage) : (s.setPending t).pendValid = true := rfl
@[simp] theorem State.setPending_cfg (t : Stage) : (s.setPending t).cfg = s.cfg := rfl
@[simp] theorem State.setPending_sticky (t : Stage) : (s.setPending t).sticky = s.sticky := rfl
@[simp] theorem State.setPending_pkt (t : Stage) : (s.setPending t).pkt = s.pkt := rfl
@[simp] theorem State.setPending_build (t : Stage) : (s.setPending t).build = s.build := rfl
@[simp] theorem State.setPending_port (t : Stage) : (s.setPending t).port = s.port := rfl
@[simp] theorem State.setPending_inF (t : Stage) : (s.setPending t).inF = s.inF := rfl
@[simp] theorem State.setPending_inC (t : Stage) : (s.setPending t).inC = s.inC := rfl
@[simp] theorem State.setPending_outF (t : Stage) : (s.setPending t).outF = s.outF := rfl
@[simp] theorem State.setPending_outC (t : Stage) : (s.setPending t).outC = s.outC := rfl
@[simp] theorem State.setPending_log (t : Stage) : (s.setPending t).log = s.log := rfl
@[simp] theorem State.setPending_resetIn (t : Stage) : (s.setPending t).resetIn = s.resetIn := rfl
@[simp] theorem State.setPending_turn (t : Stage) : (s.setPending t).turn = s.turn := rfl

/-! ### `request` -/

@[simp] theorem State.request_inited (b : Bool) (t : Stage) (k : Bool) : (s.request b t k).inited = s.inited := rfl
@[simp] theorem State.request_nringsL (b : Bool) (t : Stage) (k : Bool) : (s.request b t k).nringsL = s.nringsL := rfl
@[simp] theorem State.request_n0L (b : Bool) (t : Stage) (k : Bool) : (s.request b t k).n0L = s.n0L := rfl
@[simp] theorem State.request_n1L (b : Bool) (t : Stage) (k : Bool) : (s.request b t k).n1L = s.n1L := rfl
@[simp] theorem State.request_ring0 (b : Bool) (t : Stage) (k : Bool) : (s.request b t k).ring0 = s.ring0 := rfl
@[simp] theorem State.request_ring1 (b : Bool) (t : Stage) (k : Bool) : (s.request b t k).ring1 = s.ring1 := rfl
@[simp] theorem State.request_pal (b : Bool) (t : Stage) (k : Bool) : (s.request b t k).pal = s.pal := rfl
@[simp] theorem State.request_pulsing (b : Bool) (t : Stage) (k : Bool) : (s.request b t k).pulsing = s.pulsing := rfl
@[simp] theorem State.request_pulseH (b : Bool) (t : Stage) (k : Bool) : (s.request b t k).pulseH = s.pulseH := rfl
@[simp] theorem State.request_cur (b : Bool) (t : Stage) (k : Bool) : (s.request b t k).cur = s.cur := rfl
@[simp] theorem State.request_pend (b : Bool) (t : Stage) (k : Bool) : (s.request b t k).pend = if b && !s.guardRejects t k then mkStage s.cfg s.cur t else s.pend := rfl
@[simp] theorem State.request_pendValid (b : Bool) (t : Stage) (k : Bool) : (s.request b t k).pendValid = if b && !s.guardRejects t k then true else s.pendValid := rfl
@[simp] theorem State.request_cfg (b : Bool) (t : Stage) (k : Bool) : (s.request b t k).cfg = s.cfg := rfl
@[simp] theorem State.request_sticky (b : Bool) (t : Stage) (k : Bool) : (s.request b t k).sticky = s.sticky := rfl
@[simp] theorem State.request_pkt (b : Bool) (t : Stage) (k : Bool) : (s.request b t k).pkt = s.pkt := rfl
@[simp] theorem State.request_build (b : Bool) (t : Stage) (k : Bool) : (s.request b t k).build = s.build := rfl
@[simp] theorem State.request_port (b : Bool) (t : Stage) (k : Bool) : (s.request b t k).port = s.port := rfl
@[simp] theorem State.request_inF (b : Bool) (t : Stage) (k : Bool) : (s.request b t k).inF = s.inF := rfl
@[simp] theorem State.request_inC (b : Bool) (t : Stage) (k : Bool) : (s.request b t k).inC = s.inC := rfl
@[simp] theorem State.request_outF (b : Bool) (t : Stage) (k : Bool) : (s.request b t k).outF = s.outF := rfl
@[simp] theorem State.request_outC (b : Bool) (t : Stage) (k : Bool) : (s.request b t k).outC = s.outC := rfl
@[simp] theorem State.request_log (b : Bool) (t : Stage) (k : Bool) : (s.request b t k).log = s.log := rfl
@[simp] theorem State.request_resetIn (b : Bool) (t : Stage) (k : Bool) : (s.request b t k).resetIn = s.resetIn := rfl
@[simp] theorem State.request_turn (b : Bool) (t : Stage) (k : Bool) : (s.request b t k).turn = s.turn := rfl

/-! ### `advanceTime` -/

@[simp] theorem State.advanceTime_inited (dt : ℚ) : (s.advanceTime dt).inited = s.inited := rfl
@[simp] theorem State.advanceTime_nringsL (dt : ℚ) : (s.advanceTime dt).nringsL = s.nringsL := rfl
@[simp] theorem State.advanceTime_n0L (dt : ℚ) : (s.advanceTime dt).n0L = s.n0L := rfl
@[simp] theorem State.advanceTime_n1L (dt : ℚ) : (s.advanceTime dt).n1L = s.n1L := rfl
@[simp] theorem State.advanceTime_ring0 (dt : ℚ) : (s.advanceTime dt).ring0 = s.ring0 := rfl
@[simp] theorem State.advanceTime_ring1 (dt : ℚ) : (s.advanceTime dt).ring1 = s.ring1 := rfl
@[simp] theorem State.advanceTime_pal (dt : ℚ) : (s.advanceTime dt).pal = s.pal := rfl
@[simp] theorem State.advanceTime_pulsing (dt : ℚ) : (s.advanceTime dt).pulsing = s.pulsing := rfl
@[simp] theorem State.advanceTime_pulseH (dt : ℚ) : (s.advanceTime dt).pulseH = s.pulseH + s.cfg.blinkRate * dt := rfl
@[simp] theorem State.advanceTime_cur (dt : ℚ) : (s.advanceTime dt).cur = s.cur.age dt := rfl
@[simp] theorem State.advanceTime_pend (dt : ℚ) : (s.advanceTime dt).pend = s.pend := rfl
@[simp] theorem State.advanceTime_pendValid (dt : ℚ) : (s.advanceTime dt).pendValid = s.pendValid := rfl
@[simp] theorem State.advanceTime_cfg (dt : ℚ) : (s.advanceTime dt).cfg = s.cfg := rfl
@[simp] theorem State.advanceTime_sticky (dt : ℚ) : (s.advanceTime dt).sticky = s.sticky := rfl
@[simp] theorem State.advanceTime_pkt (dt : ℚ) : (s.advanceTime dt).pkt = s.pkt := rfl
@[simp] theorem State.advanceTime_build (dt : ℚ) : (s.advanceTime dt).build = s.build := rfl
@[simp] theorem State.advanceTime_port (dt : ℚ) : (s.advanceTime dt).port = s.port := rfl
@[simp] theorem State.advanceTime_inF (dt : ℚ) : (s.advanceTime dt).inF = s.inF := rfl
@[simp] theorem State.advanceTime_inC (dt : ℚ) : (s.advanceTime dt).inC = s.inC := rfl
@[simp] theorem State.advanceTime_outF (dt : ℚ) : (s.advanceTime dt).outF = s.outF := rfl
@[simp] theorem State.advanceTime_outC (dt : ℚ) : (s.advanceTime dt).outC = s.outC := rfl
@[simp] theorem State.advanceTime_log (dt : ℚ) : (s.advanceTime dt).log = s.log := rfl
@[simp] theorem State.advanceTime_resetIn (dt : ℚ) : (s.advanceTime dt).resetIn = s.resetIn := rfl
@[simp] theorem State.advanceTime_turn (dt : ℚ) : (s.advanceTime dt).turn = s.turn := rfl

/-! ### `enterStage` -/

@[simp] theorem State.enterStage_inited (t : Stage) : (s.enterStage t).inited = s.inited := by cases t <;> rfl
@[simp] theorem State.enterStage_nringsL (t : Stage) : (s.enterStage t).nringsL = s.nringsL := by cases t <;> rfl
@[simp] theorem State.enterStage_n0L (t : Stage) : (s.enterStage t).n0L = s.n0L := by cases t <;> rfl
@[simp] theorem State.enterStage_n1L (t : Stage) : (s.enterStage t).n1L = s.n1L := by cases t <;> rfl
@[simp] theorem State.enterStage_pal (t : Stage) : (s.enterStage t).pal = s.pal := by cases t <;> rfl
@[simp] theorem State.enterStage_pulseH (t : Stage) : (s.enterStage t).pulseH = s.pulseH := by cases t <;> rfl
@[simp] theorem State.enterStage_cur (t : Stage) : (s.enterStage t).cur = s.cur := by cases t <;> rfl
@[simp] theorem State.enterStage_pend (t : Stage) : (s.enterStage t).pend = s.pend := by cases t <;> rfl
@[simp] theorem State.enterStage_pendValid (t : Stage) : (s.enterStage t).pendValid = s.pendValid := by cases t <;> rfl
@[simp] theorem State.enterStage_cfg (t : Stage) : (s.enterStage t).cfg = s.cfg := by cases t <;> rfl
@[simp] theorem State.enterStage_sticky (t : Stage) : (s.enterStage t).sticky = s.sticky := by cases t <;> rfl
@[simp] theorem State.enterStage_pkt (t : Stage) : (s.enterStage t).pkt = s.pkt := by cases t <;> rfl
@[simp] theorem State.enterStage_build (t : Stage) : (s.enterStage t).build = s.build := by cases t <;> rfl
@[simp] theorem State.enterStage_port (t : Stage) : (s.enterStage t).port = s.port := by cases t <;> rfl
@[simp] theorem State.enterStage_inF (t : Stage) : (s.enterStage t).inF = s.inF := by cases t <;> rfl
@[simp] theorem State.enterStage_inC (t : Stage) : (s.enterStage t).inC = s.inC := by cases t <;> rfl
@[simp] theorem State.enterStage_outF (t : Stage) : (s.enterStage t).outF = s.outF := by cases t <;> rfl
@[simp] theorem State.enterStage_outC (t : Stage) : (s.enterStage t).outC = s.outC := by cases t <;> rfl
@[simp] theorem State.enterStage_log (t : Stage) : (s.enterStage t).log = s.log := by cases t <;> rfl
@[simp] theorem State.enterStage_resetIn (t : Stage) : (s.enterStage t).resetIn = s.resetIn := by cases t <;> rfl
@[simp] theorem State.enterStage_turn (t : Stage) : (s.enterStage t).turn = s.turn := by cases t <;> rfl

/-! ### `swap` -/

@[simp] theorem State.swap_inited : (s.swap).inited = s.inited := by unfold State.swap; split <;> simp
@[simp] theorem State.swap_nringsL : (s.swap).nringsL = s.nringsL := by unfold State.swap; split <;> simp
@[simp] theorem State.swap_n0L : (s.swap).n0L = s.n0L := by unfold State.swap; split <;> simp
@[simp] theorem State.swap_n1L : (s.swap).n1L = s.n1L := by unfold State.swap; split <;> simp
@[simp] theorem State.swap_pal : (s.swap).pal = s.pal := by unfold State.swap; split <;> simp
@[simp] theorem State.swap_pulseH : (s.swap).pulseH = s.pulseH := by unfold State.swap; split <;> simp
@[simp] theorem State.swap_pend : (s.swap).pend = s.pend := by unfold State.swap; split <;> simp
@[simp] theorem State.swap_cfg : (s.swap).cfg = s.cfg := by unfold State.swap; split <;> simp
@[simp] theorem State.swap_sticky : (s.swap).sticky = s.sticky := by unfold State.swap; split <;> simp
@[simp] theorem State.swap_pkt : (s.swap).pkt = s.pkt := by unfold State.swap; split <;> simp
@[simp] theorem State.swap_build : (s.swap).build = s.build := by unfold State.swap; split <;> simp
@[simp] theorem State.swap_port : (s.swap).port = s.port := by unfold State.swap; split <;> simp
@[simp] theorem State.swap_inF : (s.swap).inF = s.inF := by unfold State.swap; split <;> simp
@[simp] theorem State.swap_inC : (s.swap).inC = s.inC := by unfold State.swap; split <;> simp
@[simp] theorem State.swap_outF : (s.swap).outF = s.outF := by unfold State.swap; split <;> simp
@[simp] theorem State.swap_outC : (s.swap).outC = s.outC := by unfold State.swap; split <;> simp
@[simp] theorem State.swap_log : (s.swap).log = s.log := by unfold State.swap; split <;> simp
@[simp] theorem State.swap_resetIn : (s.swap).resetIn = s.resetIn := by unfold State.swap; split <;> simp
@[simp] theorem State.swap_turn : (s.swap).turn = s.turn := by unfold State.swap; split <;> simp

@[simp] theorem State.swap_cur : s.swap.cur = if s.pendValid then s.pend else s.cur := by
  unfold State.swap; split <;> simp

@[simp] theorem State.swap_pendValid : s.swap.pendValid = false := by
  unfold State.swap; split <;> simp_all

/-! ### `update` -/

@[simp] theorem State.update_inited (dt : ℚ) : (s.update dt).inited = s.inited := by unfold State.update; split <;> first | rfl | (unfold State.updateWindup; dsimp only; split <;> rfl)
@[simp] theorem State.update_nringsL (dt : ℚ) : (s.update dt).nringsL = s.nringsL := by unfold State.update; split <;> first | rfl | (unfold State.updateWindup; dsimp only; split <;> rfl)
@[simp] theorem State.update_n0L (dt : ℚ) : (s.update dt).n0L = s.n0L := by unfold State.update; split <;> first | rfl | (unfold State.updateWindup; dsimp only; split <;> rfl)
@[simp] theorem State.update_n1L (dt : ℚ) : (s.update dt).n1L = s.n1L := by unfold State.update; split <;> first | rfl | (unfold State.updateWindup; dsimp only; split <;> rfl)
@[simp] theorem State.update_pal (dt : ℚ) : (s.update dt).pal = s.pal := by unfold State.update; split <;> first | rfl | (unfold State.updateWindup; dsimp only; split <;> rfl)
@[simp] theorem State.update_pulsing (dt : ℚ) : (s.update dt).pulsing = s.pulsing := by unfold State.update; split <;> first | rfl | (unfold State.updateWindup; dsimp only; split <;> rfl)
@[simp] theorem State.update_pulseH (dt : ℚ) : (s.update dt).pulseH = s.pulseH := by unfold State.update; split <;> first | rfl | (unfold State.updateWindup; dsimp only; split <;> rfl)
@[simp] theorem State.update_cfg (dt : ℚ) : (s.update dt).cfg = s.cfg := by unfold State.update; split <;> first | rfl | (unfold State.updateWindup; dsimp only; split <;> rfl)
@[simp] theorem State.update_sticky (dt : ℚ) : (s.update dt).sticky = s.sticky := by unfold State.update; split <;> first | rfl | (unfold State.updateWindup; dsimp only; split <;> rfl)
@[simp] theorem State.update_pkt (dt : ℚ) : (s.update dt).pkt = s.pkt := by unfold State.update; split <;> first | rfl | (unfold State.updateWindup; dsimp only; split <;> rfl)
@[simp] theorem State.update_build (dt : ℚ) : (s.update dt).build = s.build := by unfold State.update; split <;> first | rfl | (unfold State.updateWindup; dsimp only; split <;> rfl)
@[simp] theorem State.update_port (dt : ℚ) : (s.update dt).port = s.port := by unfold State.update; split <;> first | rfl | (unfold State.updateWindup; dsimp only; split <;> rfl)
@[simp] theorem State.update_inF (dt : ℚ) : (s.update dt).inF = s.inF := by unfold State.update; split <;> first | rfl | (unfold State.updateWindup; dsimp only; split <;> rfl)
@[simp] theorem State.update_inC (dt : ℚ) : (s.update dt).inC = s.inC := by unfold State.update; split <;> first | rfl | (unfold State.updateWindup; dsimp only; split <;> rfl)
@[simp] theorem State.update_outF (dt : ℚ) : (s.update dt).outF = s.outF := by unfold State.update; split <;> first | rfl | (unfold State.updateWindup; dsimp only; split <;> rfl)
@[simp] theorem State.update_outC (dt : ℚ) : (s.update dt).outC = s.outC := by unfold State.update; split <;> first | rfl | (unfold State.updateWindup; dsimp only; split <;> rfl)
@[simp] theorem State.update_log (dt : ℚ) : (s.update dt).log = s.log := by unfold State.update; split <;> first | rfl | (unfold State.updateWindup; dsimp only; split <;> rfl)
@[simp] theorem State.update_resetIn (dt : ℚ) : (s.update dt).resetIn = s.resetIn := by unfold State.update; split <;> first | rfl | (unfold State.updateWindup; dsimp only; split <;> rfl)
@[simp] theorem State.update_turn (dt : ℚ) : (s.update dt).turn = s.turn := by unfold State.update; split <;> first | rfl | (unfold State.updateWindup; dsimp only; split <;> rfl)

/-! ### `tick` -/

@[simp] theorem State.tick_inited (dt : ℚ) : (s.tick dt).inited = s.inited := by simp [State.tick]
@[simp] theorem State.tick_nringsL (dt : ℚ) : (s.tick dt).nringsL = s.nringsL := by simp [State.tick]
@[simp] theorem State.tick_n0L (dt : ℚ) : (s.tick dt).n0L = s.n0L := by simp [State.tick]
@[simp] theorem State.tick_n1L (dt : ℚ) : (s.tick dt).n1L = s.n1L := by simp [State.tick]
@[simp] theorem State.tick_pal (dt : ℚ) : (s.tick dt).pal = s.pal := by simp [State.tick]
@[simp] theorem State.tick_cfg (dt : ℚ) : (s.tick dt).cfg = s.cfg := by simp [State.tick]
@[simp] theorem State.tick_sticky (dt : ℚ) : (s.tick dt).sticky = s.sticky := by simp [State.tick]
@[simp] theorem State.tick_pkt (dt : ℚ) : (s.tick dt).pkt = s.pkt := by simp [State.tick]
@[simp] theorem State.tick_build (dt : ℚ) : (s.tick dt).build = s.build := by simp [State.tick]
@[simp] theorem State.tick_port (dt : ℚ) : (s.tick dt).port = s.port := by simp [State.tick]
@[simp] theorem State.tick_inF (dt : ℚ) : (s.tick dt).inF = s.inF := by simp [State.tick]
@[simp] theorem State.tick_inC (dt : ℚ) : (s.tick dt).inC = s.inC := by simp [State.tick]
@[simp] theorem State.tick_outF (dt : ℚ) : (s.tick dt).outF = s.outF := by simp [State.tick]
@[simp] theorem State.tick_outC (dt : ℚ) : (s.tick dt).outC = s.outC := by simp [State.tick]
@[simp] theorem State.tick_log (dt : ℚ) : (s.tick dt).log = s.log := by simp [State.tick]
@[simp] theorem State.tick_resetIn (dt : ℚ) : (s.tick dt).resetIn = s.resetIn := by simp [State.tick]
@[simp] theorem State.tick_turn (dt : ℚ) : (s.tick dt).turn = s.turn := by simp [State.tick]

@[simp] theorem State.tick_pulsing (dt : ℚ) : (s.tick dt).pulsing = s.swap.pulsing := by simp [State.tick]

@[simp] theorem State.tick_pulseH (dt : ℚ) : (s.tick dt).pulseH = s.pulseH + s.cfg.blinkRate * dt := by
  simp [State.tick]

/-! ### `takeFrame` -/

@[simp] theorem State.takeFrame_inited (p : Port) : (s.takeFrame p).inited = s.inited := rfl
@[simp] theorem State.takeFrame_nringsL (p : Port) : (s.takeFrame p).nringsL = s.nringsL := rfl
@[simp] theorem State.takeFrame_n0L (p : Port) : (s.takeFrame p).n0L = s.n0L := rfl
@[simp] theorem State.takeFrame_n1L (p : Port) : (s.takeFrame p).n1L = s.n1L := rfl
@[simp] theorem State.takeFrame_ring0 (p : Port) : (s.takeFrame p).ring0 = s.ring0 := rfl
@[simp] theorem State.takeFrame_ring1 (p : Port) : (s.takeFrame p).ring1 = s.ring1 := rfl
@[simp] theorem State.takeFrame_pal (p : Port) : (s.takeFrame p).pal = s.pal := rfl
@[simp] theorem State.takeFrame_pulsing (p : Port) : (s.takeFrame p).pulsing = s.pulsing := rfl
@[simp] theorem State.takeFrame_pulseH (p : Port) : (s.takeFrame p).pulseH = s.pulseH := rfl
@[simp] theorem State.takeFrame_cur (p : Port) : (s.takeFrame p).cur = s.cur := rfl
@[simp] theorem State.takeFrame_pend (p : Port) : (s.takeFrame p).pend = s.pend := rfl
@[simp] theorem State.takeFrame_pendValid (p : Port) : (s.takeFrame p).pendValid = s.pendValid := rfl
@[simp] theorem State.takeFrame_cfg (p : Port) : (s.takeFrame p).cfg = s.cfg := rfl
@[simp] theorem State.takeFrame_sticky (p : Port) : (s.takeFrame p).sticky = s.sticky := rfl
@[simp] theorem State.takeFrame_pkt (p : Port) : (s.takeFrame p).pkt = s.pkt := rfl
@[simp] theorem State.takeFrame_build (p : Port) : (s.takeFrame p).build = s.build := rfl
@[simp] theorem State.takeFrame_port (p : Port) : (s.takeFrame p).port = p := rfl
@[simp] theorem State.takeFrame_inF (p : Port) : (s.takeFrame p).inF = if p = .F then s.inF.tail else s.inF := rfl
@[simp] theorem State.takeFrame_inC (p : Port) : (s.takeFrame p).inC = if p = .C then s.inC.tail else s.inC := rfl
@[simp] theorem State.takeFrame_outF (p : Port) : (s.takeFrame p).outF = s.outF := rfl
@[simp] theorem State.takeFrame_outC (p : Port) : (s.takeFrame p).outC = s.outC := rfl
@[simp] theorem State.takeFrame_log (p : Port) : (s.takeFrame p).log = s.log := rfl
@[simp] theorem State.takeFrame_resetIn (p : Port) : (s.takeFrame p).resetIn = s.resetIn := rfl
@[simp] theorem State.takeFrame_turn (p : Port) : (s.takeFrame p).turn = s.turn + 1 := rfl

/-! ### `initialise` -/

@[simp] theorem State.initialise_inited : (s.initialise).inited = true := rfl
@[simp] theorem State.initialise_nringsL : (s.initialise).nringsL = s.cfg.nrings := rfl
@[simp] theorem State.initialise_n0L : (s.initialise).n0L = s.cfg.n0 := rfl
@[simp] theorem State.initialise_n1L : (s.initialise).n1L = s.cfg.n1 := rfl
@[simp] theorem State.initialise_pal : (s.initialise).pal = s.pal := rfl
@[simp] theorem State.initialise_pulsing : (s.initialise).pulsing = false := rfl
@[simp] theorem State.initialise_pulseH : (s.initialise).pulseH = 0 := rfl
@[simp] theorem State.initialise_cur : (s.initialise).cur = .dark ⟨0, s.cfg.resetTime⟩ := rfl
@[simp] theorem State.initialise_pend : (s.initialise).pend = s.pend := rfl
@[simp] theorem State.initialise_pendValid : (s.initialise).pendValid = false := rfl
@[simp] theorem State.initialise_cfg : (s.initialise).cfg = s.cfg := rfl
@[simp] theorem State.initialise_sticky : (s.initialise).sticky = s.sticky := rfl
@[simp] theorem State.initialise_build : (s.initialise).build = s.build := rfl
@[simp] theorem State.initialise_port : (s.initialise).port = s.port := rfl
@[simp] theorem State.initialise_inF : (s.initialise).inF = s.inF := rfl
@[simp] theorem State.initialise_inC : (s.initialise).inC = s.inC := rfl
@[simp] theorem State.initialise_outF : (s.initialise).outF = s.outF := rfl
@[simp] theorem State.initialise_outC : (s.initialise).outC = s.outC := rfl
@[simp] theorem State.initialise_log : (s.initialise).log = s.log := rfl
@[simp] theorem State.initialise_resetIn : (s.initialise).resetIn = s.resetIn := rfl
@[simp] theorem State.initialise_turn : (s.initialise).turn = s.turn := rfl

/-! ### `takeReset` -/

@[simp] theorem State.takeReset_inited : (s.takeReset).inited = false := rfl
@[simp] theorem State.takeReset_nringsL : (s.takeReset).nringsL = 0 := rfl
@[simp] theorem State.takeReset_n0L : (s.takeReset).n0L = 0 := rfl
@[simp] theorem State.takeReset_n1L : (s.takeReset).n1L = 0 := rfl
@[simp] theorem State.takeReset_ring0 : (s.takeReset).ring0 = [] := rfl
@[simp] theorem State.takeReset_ring1 : (s.takeReset).ring1 = [] := rfl
@[simp] theorem State.takeReset_pal : (s.takeReset).pal = s.build.defaults.pal := rfl
@[simp] theorem State.takeReset_pulsing : (s.takeReset).pulsing = false := rfl
@[simp] theorem State.takeReset_pulseH : (s.takeReset).pulseH = 0 := rfl
@[simp] theorem State.takeReset_cur : (s.takeReset).cur = .dark ⟨0, 0⟩ := rfl
@[simp] theorem State.takeReset_pend : (s.takeReset).pend = .dark ⟨0, 0⟩ := rfl
@[simp] theorem State.takeReset_pendValid : (s.takeReset).pendValid = false := rfl
@[simp] theorem State.takeReset_cfg : (s.takeReset).cfg = s.build.defaults.cfg := rfl
@[simp] theorem State.takeReset_sticky : (s.takeReset).sticky = ⟨false, false, false, false, false⟩ := rfl
@[simp] theorem State.takeReset_pkt : (s.takeReset).pkt = [] := rfl
@[simp] theorem State.takeReset_build : (s.takeReset).build = s.build := rfl
@[simp] theorem State.takeReset_port : (s.takeReset).port = .F := rfl
@[simp] theorem State.takeReset_inF : (s.takeReset).inF = s.inF := rfl
@[simp] theorem State.takeReset_inC : (s.takeReset).inC = s.inC := rfl
@[simp] theorem State.takeReset_outF : (s.takeReset).outF = s.outF := rfl
@[simp] theorem State.takeReset_outC : (s.takeReset).outC = s.outC := rfl
@[simp] theorem State.takeReset_log : (s.takeReset).log = s.log := rfl
@[simp] theorem State.takeReset_resetIn : (s.takeReset).resetIn = false := rfl
@[simp] theorem State.takeReset_turn : (s.takeReset).turn = s.turn := rfl

/-! ### `withFrame` -/

@[simp] theorem State.withFrame_inited (f : Frame) : (s.withFrame f).inited = s.inited := rfl
@[simp] theorem State.withFrame_nringsL (f : Frame) : (s.withFrame f).nringsL = s.nringsL := rfl
@[simp] theorem State.withFrame_n0L (f : Frame) : (s.withFrame f).n0L = s.n0L := rfl
@[simp] theorem State.withFrame_n1L (f : Frame) : (s.withFrame f).n1L = s.n1L := rfl
@[simp] theorem State.withFrame_ring0 (f : Frame) : (s.withFrame f).ring0 = s.ring0 := rfl
@[simp] theorem State.withFrame_ring1 (f : Frame) : (s.withFrame f).ring1 = s.ring1 := rfl
@[simp] theorem State.withFrame_pal (f : Frame) : (s.withFrame f).pal = s.pal := rfl
@[simp] theorem State.withFrame_pulsing (f : Frame) : (s.withFrame f).pulsing = s.pulsing := rfl
@[simp] theorem State.withFrame_pulseH (f : Frame) : (s.withFrame f).pulseH = s.pulseH := rfl
@[simp] theorem State.withFrame_cur (f : Frame) : (s.withFrame f).cur = s.cur := rfl
@[simp] theorem State.withFrame_pend (f : Frame) : (s.withFrame f).pend = s.pend := rfl
@[simp] theorem State.withFrame_pendValid (f : Frame) : (s.withFrame f).pendValid = s.pendValid := rfl
@[simp] theorem State.withFrame_cfg (f : Frame) : (s.withFrame f).cfg = s.cfg := rfl
@[simp] theorem State.withFrame_sticky (f : Frame) : (s.withFrame f).sticky = s.sticky := rfl
@[simp] theorem State.withFrame_pkt (f : Frame) : (s.withFrame f).pkt = s.pkt := rfl
@[simp] theorem State.withFrame_build (f : Frame) : (s.withFrame f).build = s.build := rfl
@[simp] theorem State.withFrame_port (f : Frame) : (s.withFrame f).port = s.port := rfl
@[simp] theorem State.withFrame_inF (f : Frame) : (s.withFrame f).inF = [f] := rfl
@[simp] theorem State.withFrame_inC (f : Frame) : (s.withFrame f).inC = [] := rfl
@[simp] theorem State.withFrame_outF (f : Frame) : (s.withFrame f).outF = s.outF := rfl
@[simp] theorem State.withFrame_outC (f : Frame) : (s.withFrame f).outC = s.outC := rfl
@[simp] theorem State.withFrame_log (f : Frame) : (s.withFrame f).log = s.log := rfl
@[simp] theorem State.withFrame_resetIn (f : Frame) : (s.withFrame f).resetIn = false := rfl
@[simp] theorem State.withFrame_turn (f : Frame) : (s.withFrame f).turn = s.turn := rfl

/-! ### `issue` -/

@[simp] theorem State.issue_inited (p : Port) (cs : List Instr) : (s.issue p cs).inited = s.inited := rfl
@[simp] theorem State.issue_nringsL (p : Port) (cs : List Instr) : (s.issue p cs).nringsL = s.nringsL := rfl
@[simp] theorem State.issue_n0L (p : Port) (cs : List Instr) : (s.issue p cs).n0L = s.n0L := rfl
@[simp] theorem State.issue_n1L (p : Port) (cs : List Instr) : (s.issue p cs).n1L = s.n1L := rfl
@[simp] theorem State.issue_ring0 (p : Port) (cs : List Instr) : (s.issue p cs).ring0 = s.ring0 := rfl
@[simp] theorem State.issue_ring1 (p : Port) (cs : List Instr) : (s.issue p cs).ring1 = s.ring1 := rfl
@[simp] theorem State.issue_pal (p : Port) (cs : List Instr) : (s.issue p cs).pal = s.pal := rfl
@[simp] theorem State.issue_pulsing (p : Port) (cs : List Instr) : (s.issue p cs).pulsing = s.pulsing := rfl
@[simp] theorem State.issue_pulseH (p : Port) (cs : List Instr) : (s.issue p cs).pulseH = s.pulseH := rfl
@[simp] theorem State.issue_cur (p : Port) (cs : List Instr) : (s.issue p cs).cur = s.cur := rfl
@[simp] theorem State.issue_pend (p : Port) (cs : List Instr) : (s.issue p cs).pend = s.pend := rfl
@[simp] theorem State.issue_pendValid (p : Port) (cs : List Instr) : (s.issue p cs).pendValid = s.pendValid := rfl
@[simp] theorem State.issue_cfg (p : Port) (cs : List Instr) : (s.issue p cs).cfg = s.cfg := rfl
@[simp] theorem State.issue_sticky (p : Port) (cs : List Instr) : (s.issue p cs).sticky = s.sticky := rfl
@[simp] theorem State.issue_pkt (p : Port) (cs : List Instr) : (s.issue p cs).pkt = s.pkt := rfl
@[simp] theorem State.issue_build (p : Port) (cs : List Instr) : (s.issue p cs).build = s.build := rfl
@[simp] theorem State.issue_port (p : Port) (cs : List Instr) : (s.issue p cs).port = s.port := rfl
@[simp] theorem State.issue_inF (p : Port) (cs : List Instr) : (s.issue p cs).inF = if p = .F then s.inF ++ cs.map (encode s.build.cw) else s.inF := rfl
@[simp] theorem State.issue_inC (p : Port) (cs : List Instr) : (s.issue p cs).inC = if p = .C then s.inC ++ cs.map (encode s.build.cw) else s.inC := rfl
@[simp] theorem State.issue_outF (p : Port) (cs : List Instr) : (s.issue p cs).outF = s.outF := rfl
@[simp] theorem State.issue_outC (p : Port) (cs : List Instr) : (s.issue p cs).outC = s.outC := rfl
@[simp] theorem State.issue_log (p : Port) (cs : List Instr) : (s.issue p cs).log = s.log := rfl
@[simp] theorem State.issue_resetIn (p : Port) (cs : List Instr) : (s.issue p cs).resetIn = s.resetIn := rfl
@[simp] theorem State.issue_turn (p : Port) (cs : List Instr) : (s.issue p cs).turn = s.turn := rfl

end Sys2Proof.Machine
end

