-- ==== Sys2Proof/Laws/Ops.lean ====
section
/-! SUPPORT. For each shared operation, one lemma that says everything it can do. -/

namespace Sys2Proof.Machine

variable {s t : State} {r : CmdResult}

/-! ### Ending and admitting a command -/

/-- A command always ends in a next state: the `OK` answer of its body, or what its refusal leaves. -/
theorem State.finish_eq_next : s.finish r = .next t ↔
    (∃ s' x, r = .ok (s', x) ∧ t = s'.respond .ok x) ∨ (∃ e, r = .error e ∧ t = s.raise e) := by
  rcases r with e | ⟨s', x⟩ <;> simp [State.finish, eq_comm]

@[simp] theorem State.finish_ok {s' : State} {x : Result} : s.finish (.ok (s', x)) = .next (s'.respond .ok x) := rfl

@[simp] theorem State.finish_error {e : Raised} : s.finish (.error e) = .next (s.raise e) := rfl

@[simp] theorem State.finish_done {s' : State} : s.finish (done s') = .next (s'.respond .ok .none) := rfl

@[simp] theorem State.finish_refuse {c : RespCode} : s.finish (refuse c) = .next (s.raise ⟨c, none⟩) := rfl

theorem State.finish_ends (s : State) (r : CmdResult) : ∃ t, s.finish r = .next t := by
  rcases r with e | ⟨s', x⟩
  · exact ⟨_, rfl⟩
  · exact ⟨_, rfl⟩

/-- The common checks let the body run, refuse the port, or refuse the state, in that order. -/
theorem State.permit_cases (s : State) (c i : Bool) (r : CmdResult) :
    (s.port = .C ∧ c = false ∧ s.permit c i r = refuse .badPort) ∨
    ((s.port = .C → c = true) ∧ s.inited = false ∧ i = false ∧ s.permit c i r = refuse .badState) ∨
    ((s.port = .C → c = true) ∧ (s.inited = false → i = true) ∧ s.permit c i r = r) := by
  unfold State.permit
  by_cases hp : s.port = .C <;> cases c <;> by_cases hi : s.inited = false <;> cases i <;> simp_all

theorem State.permit_pass {c i : Bool} (hp : s.port = .C → c = true) (hi : s.inited = false → i = true) :
    s.permit c i r = r := by
  rcases s.permit_cases c i r with ⟨h1, h2, -⟩ | ⟨-, h1, h2, -⟩ | ⟨-, -, h⟩
  · simp_all
  · simp_all
  · exact h

/-! ### Operand checks -/

/-- A flag byte is 0, or 1, or refused. -/
theorem withFlag_cases (b : Byte) (f : Bool → CmdResult) :
    (b = 0x00#8 ∧ withFlag b f = f false) ∨ (b = 0x01#8 ∧ withFlag b f = f true) ∨
    (b ≠ 0x00#8 ∧ b ≠ 0x01#8 ∧ withFlag b f = refuse .range) := by
  unfold withFlag flagOf
  by_cases h0 : b = 0x00#8
  · simp [h0]
  · by_cases h1 : b = 0x01#8 <;> simp [h0, h1]

@[simp] theorem withFlag_zero (f : Bool → CmdResult) : withFlag 0x00#8 f = f false := rfl

@[simp] theorem withFlag_one (f : Bool → CmdResult) : withFlag 0x01#8 f = f true := rfl

theorem State.withRing_pass {ring : Byte} {f : Nat → CmdResult} (h : ring.toNat < s.nringsL) :
    s.withRing ring f = f ring.toNat := by
  simp [State.withRing, Nat.not_le.mpr h]

theorem State.withRing_refuse {ring : Byte} {f : Nat → CmdResult} (h : s.nringsL ≤ ring.toNat) :
    s.withRing ring f = refuse .range := by
  simp [State.withRing, h]

/-! ### Register numbers and stage numbers -/

/-- A register number names one of the thirteen registers, or none (R41). -/
theorem cfgRegOf_cases : ∀ r : Byte,
    (r = 0x00#8 ∧ cfgRegOf r = some .nrings) ∨ (r = 0x01#8 ∧ cfgRegOf r = some .n0) ∨
    (r = 0x02#8 ∧ cfgRegOf r = some .n1) ∨ (r = 0x03#8 ∧ cfgRegOf r = some .flags) ∨
    (r = 0x10#8 ∧ cfgRegOf r = some .resetTime) ∨ (r = 0x11#8 ∧ cfgRegOf r = some .startAccel) ∨
    (r = 0x12#8 ∧ cfgRegOf r = some .startTargetSpeed) ∨ (r = 0x13#8 ∧ cfgRegOf r = some .advanceTime) ∨
    (r = 0x14#8 ∧ cfgRegOf r = some .windupAccel) ∨ (r = 0x15#8 ∧ cfgRegOf r = some .windupTargetSpeed) ∨
    (r = 0x16#8 ∧ cfgRegOf r = some .fillRate) ∨ (r = 0x17#8 ∧ cfgRegOf r = some .fadeTime) ∨
    (r = 0x18#8 ∧ cfgRegOf r = some .blinkRate) ∨
    (((3 < r.toNat ∧ r.toNat < 0x10) ∨ 0x18 < r.toNat) ∧ cfgRegOf r = none) := by decide +kernel

@[simp] theorem Stage.ofNum_num (t : Stage) : Stage.ofNum t.num = some t := by cases t <;> rfl

/-- A number names a stage, or is above 5 and names none (R30). -/
theorem Stage.ofNum_cases (n : Nat) :
    (∃ t : Stage, n = t.num ∧ Stage.ofNum n = some t) ∨ (5 < n ∧ Stage.ofNum n = none) := by
  match n with
  | 0 => exact .inl ⟨.dark, rfl, rfl⟩
  | 1 => exact .inl ⟨.starting, rfl, rfl⟩
  | 2 => exact .inl ⟨.idle, rfl, rfl⟩
  | 3 => exact .inl ⟨.windup, rfl, rfl⟩
  | 4 => exact .inl ⟨.explosion, rfl, rfl⟩
  | 5 => exact .inl ⟨.fade, rfl, rfl⟩
  | n + 6 => exact .inr ⟨by omega, rfl⟩

/-! ### Pixels after a draw operation -/

/-- A draw operation gives every ring that exists the memory its function makes, and no other. -/
theorem State.pixel_onRings (f : Nat → Memory Color → Memory Color) (k i : Nat) (hk : k < s.nringsL) :
    (s.onRings f).pixel k i = Memory.read Color.black (f (s.ringSize k) (s.ring k)) i := by
  by_cases h0 : k = 0
  · subst h0
    simp [State.pixel, State.ring, State.ringSize, hk]
  · have : 1 < s.nringsL := by omega
    simp [State.pixel, State.ring, State.ringSize, h0, this]

@[simp] theorem State.pixel_setRing (k k' i : Nat) (m : Memory Color) :
    (s.setRing k m).pixel k' i = if (k' = 0 ↔ k = 0) then Memory.read Color.black m i else s.pixel k' i := by
  by_cases h : k = 0 <;> by_cases h' : k' = 0 <;> simp [State.pixel, State.ring, h, h']

@[simp] theorem State.pixel_respond (c : RespCode) (r : Result) (k i : Nat) :
    (s.respond c r).pixel k i = s.pixel k i := rfl

@[simp] theorem State.pixel_raise (e : Raised) (k i : Nat) : (s.raise e).pixel k i = s.pixel k i := rfl

/-- A pixel after DECAY (R130). -/
theorem State.pixel_drawDecay (m a : ℚ) (k i : Nat) (hk : k < s.nringsL) (hi : i < s.ringSize k) :
    (s.drawDecay m a).pixel k i = decayColor s.build.cw m a (s.pixel k i) := by
  unfold State.drawDecay
  rw [State.pixel_onRings _ _ _ hk, Memory.read_tabulate, if_pos hi]
  rfl

/-- A pixel after FILL (R126). -/
theorem State.pixel_drawFill (ratio : ℚ) (c : Color) (k i : Nat) (hk : k < s.nringsL) (hi : i < s.ringSize k) :
    (s.drawFill ratio c).pixel k i = maxColor (s.pixel k i) (s.fillColor ratio c) := by
  unfold State.drawFill
  rw [State.pixel_onRings _ _ _ hk, Memory.read_tabulate, if_pos hi]
  rfl

/-- A pixel after CLEAR (R132). -/
theorem State.pixel_drawClear (k i : Nat) (hk : k < s.nringsL) : s.drawClear.pixel k i = Color.black := by
  unfold State.drawClear
  rw [State.pixel_onRings _ _ _ hk, Memory.read_tabulate]
  simp

/-- A pixel of one ring after an arc: the boundary pixel, then the whole pixels, then what was there (R120). -/
theorem read_paintArc (cw : ChannelWidth) (a b : ℚ) (k : Bool) (c : Color) (n : Nat) (m : Memory Color) (i : Nat) :
    Memory.read Color.black (paintArc cw a b k c n m) i =
      if i = boundary n (wholeIndex n (norm360 b)) k then
        scale cw c (edgeWeight k (subPixel n (norm360 b)))
      else if i ∈ wholes n (wholeIndex n (norm360 a)) (wholeIndex n (norm360 b)) (norm360 a) (norm360 b) k then c
      else Memory.read Color.black m i := by
  simp [paintArc, Memory.read_foldl_write]

/-! ### Requests and the swap -/

/-- A request whose trigger fires and whose guard passes makes the stage pending; any other leaves the slot. -/
theorem State.request_cases (s : State) (b : Bool) (t : Stage) (k : Bool) :
    (b = true ∧ s.guardRejects t k = false ∧ s.request b t k = s.setPending t) ∨
    ((b = false ∨ s.guardRejects t k = true) ∧ s.request b t k = s) := by
  cases b <;> cases h : s.guardRejects t k <;> simp [State.request, State.setPending, h]

/-- The swap takes the pending stage data with its entry actions, or nothing (R155). -/
theorem State.swap_cases (s : State) :
    (s.pendValid = true ∧ s.swap = { s with cur := s.pend, pendValid := false }.enterStage s.pend.tag) ∨
    (s.pendValid = false ∧ s.swap = s) := by
  unfold State.swap
  cases h : s.pendValid <;> simp

@[simp] theorem StageData.tag_age (d : StageData) (dt : ℚ) : (d.age dt).tag = d.tag := by cases d <;> rfl

@[simp] theorem mkStage_tag (c : Cfg) (d : StageData) (t : Stage) : (mkStage c d t).tag = t := by cases t <;> rfl

/-- An update rule never changes the stage (R39, R159). -/
@[simp] theorem State.update_cur_tag (dt : ℚ) : (s.update dt).cur.tag = s.cur.tag := by
  unfold State.update
  split
  · next h => simp [State.updateDark, h]
  · next h => simp [State.updateStarting, h, StageData.tag]
  · next h => simp [State.updateIdle, h, StageData.tag]
  · next h =>
    unfold State.updateWindup
    dsimp only
    split <;> simp [h, StageData.tag]
  · next h => simp [State.updateExplosion, h, StageData.tag]
  · next h => simp [State.updateFade, h]

/-! ### Taking the next command -/

/-- The block takes the oldest frame of a port that has one waiting, or no frame waits. -/
theorem State.fetch_cases (s : State) :
    (s.inF = [] ∧ s.inC = [] ∧ s.fetch = none) ∨
    (∃ f rest, s.inF = f :: rest ∧ s.fetch = some (f, s.takeFrame .F)) ∨
    (∃ f rest, s.inC = f :: rest ∧ s.fetch = some (f, s.takeFrame .C)) := by
  unfold State.fetch State.nextPort
  rcases hF : s.inF with _ | ⟨f, rf⟩ <;> rcases hC : s.inC with _ | ⟨c, rc⟩
  · simp
  · simp [State.headFrame, hC]
  · simp [State.headFrame, hF]
  · cases h : Config.arbiter s.turn
    · simp [State.headFrame, hF]
    · simp [State.headFrame, hC]

end Sys2Proof.Machine
end

