-- ==== Sys2Proof/Laws/Legal.lean ====
section
/-! SUPPORT. The legal states under the shared operations. -/

namespace Sys2Proof.Machine

variable {s : State}

/-! ### Ranges of stage data -/

theorem carry_range {d : StageData} (h : d.legal) : 0 ≤ (carry d).1 ∧ (carry d).1 < 360 := by
  cases d
  · exact ⟨le_refl _, by norm_num [carry]⟩
  · exact h
  · exact h
  · exact h.1
  · exact ⟨le_refl _, by norm_num [carry]⟩
  · exact ⟨le_refl _, by norm_num [carry]⟩

/-- Every stage data that is constructed is in range (R172, R181). -/
theorem mkStage_legal (c : Cfg) {d : StageData} (h : d.legal) (t : Stage) : (mkStage c d t).legal := by
  cases t
  · trivial
  · exact ⟨norm360_nonneg _, norm360_lt _⟩
  · exact carry_range h
  · exact ⟨carry_range h, norm360_nonneg _, norm360_lt _⟩
  · exact ⟨le_refl _, zero_le_one⟩
  · trivial

theorem StageData.legal_age {d : StageData} (h : d.legal) (dt : ℚ) : (d.age dt).legal := by cases d <;> exact h

/-! ### Memories of a ring -/

/-- What holds of a ring's memory in a legal state. -/
structure RingLegal (cw : ChannelWidth) (n : Nat) (m : Memory Color) : Prop where
  wf : Memory.wf Color.black m
  below : Memory.below n m
  fits : Memory.fits cw m

theorem RingLegal.write {cw : ChannelWidth} {n : Nat} {m : Memory Color} (h : RingLegal cw n m) {i : Nat} (hi : i < n)
    {c : Color} (hc : c.fits cw) : RingLegal cw n (Memory.write Color.black m i c) :=
  ⟨Memory.wf_write h.wf, Memory.below_write h.below hi, Memory.forall_write h.fits hc⟩

theorem RingLegal.tabulate {cw : ChannelWidth} {n : Nat} {f : Nat → Color} (h : ∀ i < n, (f i).fits cw) :
    RingLegal cw n (Memory.tabulate Color.black n f) :=
  ⟨Memory.wf_tabulate f, Memory.below_tabulate f, Memory.forall_tabulate f h⟩

theorem RingLegal.read_fits {cw : ChannelWidth} {n : Nat} {m : Memory Color} (h : RingLegal cw n m) (i : Nat) :
    (Memory.read Color.black m i).fits cw :=
  Memory.forall_read (black_fits cw) h.fits

theorem RingLegal.paintArc {cw : ChannelWidth} {n : Nat} {m : Memory Color} (h : RingLegal cw n m) (hn : 0 < n)
    (a b : ℚ) (k : Bool) {c : Color} (hc : c.fits cw) : RingLegal cw n (paintArc cw a b k c n m) := by
  have fold : ∀ (l : List Nat) (m : Memory Color), RingLegal cw n m → (∀ i ∈ l, i < n) →
      RingLegal cw n (l.foldl (fun m i => Memory.write Color.black m i c) m) := by
    intro l
    induction l with
    | nil => exact fun m h _ => h
    | cons i l ih =>
      intro m h hl
      exact ih _ (h.write (hl i (by simp)) hc) fun j hj => hl j (by simp [hj])
  exact (fold _ m h fun i hi => wholes_lt hn hi).write (boundary_lt hn _ k) (scale_fits cw c _)

/-! ### Legal states -/

theorem State.Legal.ringLegal0 (h : s.Legal) (h0 : 0 < s.nringsL) : RingLegal s.build.cw s.n0L s.ring0 :=
  ⟨h.ring0Wf, h.ring0Below h0, h.ring0Fits⟩

theorem State.Legal.ringLegal1 (h : s.Legal) (h1 : 1 < s.nringsL) : RingLegal s.build.cw s.n1L s.ring1 :=
  ⟨h.ring1Wf, h.ring1Below h1, h.ring1Fits⟩

/-- After INIT every ring has a pixel (R22). -/
theorem State.Legal.sizes (h : s.Legal) (hi : s.inited = true) : 0 < s.n0L ∧ 0 < s.n1L := by
  obtain ⟨-, h0, h1⟩ := h.layout hi
  have := h.cfg
  exact ⟨by rw [h0]; exact this.2.1.1, by rw [h1]; exact this.2.2.1⟩

/-- A draw operation that keeps a ring's memory legal keeps the state legal. -/
theorem State.Legal.onRings (h : s.Legal) {f : Nat → Memory Color → Memory Color}
    (h0 : 0 < s.nringsL → RingLegal s.build.cw s.n0L (f s.n0L s.ring0))
    (h1 : 1 < s.nringsL → RingLegal s.build.cw s.n1L (f s.n1L s.ring1)) : (s.onRings f).Legal where
  build := h.build
  cfg := h.cfg
  layout := h.layout
  beforeInit := h.beforeInit
  ring0Wf := by
    show Memory.wf _ (if _ then _ else _)
    split
    · next c => exact (h0 c).wf
    · exact h.ring0Wf
  ring1Wf := by
    show Memory.wf _ (if _ then _ else _)
    split
    · next c => exact (h1 c).wf
    · exact h.ring1Wf
  pktWf := h.pktWf
  ring0Below := fun c => by
    show Memory.below _ (if _ then _ else _)
    exact if_pos (c : 0 < s.nringsL) ▸ (h0 c).below
  ring1Below := fun c => by
    show Memory.below _ (if _ then _ else _)
    exact if_pos (c : 1 < s.nringsL) ▸ (h1 c).below
  pktBelow := h.pktBelow
  ring0Fits := by
    show Memory.fits _ (if _ then _ else _)
    split
    · next c => exact (h0 c).fits
    · exact h.ring0Fits
  ring1Fits := by
    show Memory.fits _ (if _ then _ else _)
    split
    · next c => exact (h1 c).fits
    · exact h.ring1Fits
  palFits := h.palFits
  cur := h.cur
  pend := h.pend

theorem State.Legal.drawArc (h : s.Legal) (hi : s.inited = true) (a b : ℚ) (k : Bool) {c : Color}
    (hc : c.fits s.build.cw) : (s.drawArc a b k c).Legal :=
  h.onRings (fun c0 => (h.ringLegal0 c0).paintArc (h.sizes hi).1 a b k (State.effcol_fits hc))
    (fun c1 => (h.ringLegal1 c1).paintArc (h.sizes hi).2 a b k (State.effcol_fits hc))

theorem State.Legal.drawFill (h : s.Legal) (ratio : ℚ) (c : Color) : (s.drawFill ratio c).Legal :=
  h.onRings
    (fun c0 => RingLegal.tabulate fun i _ => maxColor_fits ((h.ringLegal0 c0).read_fits i) (scale_fits _ _ _))
    (fun c1 => RingLegal.tabulate fun i _ => maxColor_fits ((h.ringLegal1 c1).read_fits i) (scale_fits _ _ _))

theorem State.Legal.drawDecay (h : s.Legal) (m a : ℚ) : (s.drawDecay m a).Legal :=
  h.onRings (fun _ => RingLegal.tabulate fun _ _ => decayColor_fits _ _ _ _)
    (fun _ => RingLegal.tabulate fun _ _ => decayColor_fits _ _ _ _)

theorem State.Legal.drawClear (h : s.Legal) : s.drawClear.Legal :=
  h.onRings (fun _ => RingLegal.tabulate fun _ _ => black_fits _) (fun _ => RingLegal.tabulate fun _ _ => black_fits _)

/-- New stage data in range, and any pulse state, keep an initialised state legal. -/
theorem State.Legal.withStage (h : s.Legal) (hi : s.inited = true) {cur pend : StageData} (hc : cur.legal)
    (hp : pend.legal) (v : Bool) (pulsing : Bool) (x : ℚ) :
    { s with cur := cur, pend := pend, pendValid := v, pulsing := pulsing, pulseH := x }.Legal where
  build := h.build
  cfg := h.cfg
  layout := h.layout
  beforeInit := fun hn => absurd hi (by simp only at hn; simp [hn])
  ring0Wf := h.ring0Wf
  ring1Wf := h.ring1Wf
  pktWf := h.pktWf
  ring0Below := h.ring0Below
  ring1Below := h.ring1Below
  pktBelow := h.pktBelow
  ring0Fits := h.ring0Fits
  ring1Fits := h.ring1Fits
  palFits := h.palFits
  cur := hc
  pend := hp

theorem State.Legal.request (h : s.Legal) (hi : s.inited = true) (fires : Bool) (t : Stage) (k : Bool) :
    (s.request fires t k).Legal := by
  rcases s.request_cases fires t k with ⟨-, -, e⟩ | ⟨-, e⟩
  · rw [e]
    exact h.withStage hi h.cur (mkStage_legal _ h.cur t) true s.pulsing s.pulseH
  · rw [e]
    exact h

theorem State.Legal.swap (h : s.Legal) (hi : s.inited = true) : s.swap.Legal := by
  rcases s.swap_cases with ⟨-, e⟩ | ⟨-, e⟩
  · have h' := h.withStage hi h.pend h.pend false s.pulsing s.pulseH
    rw [e]
    cases s.pend.tag
    · exact h'.drawClear.withStage hi h.pend h.pend false false s.pulseH
    all_goals exact h'
  · rw [e]
    exact h

theorem State.Legal.update (h : s.Legal) (hi : s.inited = true) (dt : ℚ) : (s.update dt).Legal := by
  have hd := h.drawDecay kTrail stageDecayAddition
  have hcur := h.cur
  unfold State.update
  split
  · exact h.request hi _ _ _
  · next d _ =>
    exact ((hd.drawArc hi _ _ _ h.palFits.1).withStage hi (cur := .starting _)
      ⟨norm360_nonneg _, norm360_lt _⟩ h.pend _ _ _).request hi _ _ _
  · next d _ =>
    exact ((hd.drawArc hi _ _ _ h.palFits.1).withStage hi (cur := .idle _)
      ⟨norm360_nonneg _, norm360_lt _⟩ h.pend _ _ _).request hi _ _ _
  · next d _ =>
    have hm : (StageData.windup (d.move dt)).legal :=
      ⟨⟨norm360_nonneg _, norm360_lt _⟩, norm360_nonneg _, norm360_lt _⟩
    have h' := hd.withStage hi hm h.pend s.pendValid s.pulsing s.pulseH
    unfold State.updateWindup
    dsimp only
    split
    · exact h'.request hi _ _ _
    · exact (h'.drawArc hi _ _ _ h.palFits.1).drawArc hi _ _ _ h.palFits.2.1
  · next d _ =>
    exact ((h.drawFill _ _).withStage hi (cur := .explosion _)
      ⟨le_min (le_max_right _ _) zero_le_one, min_le_right _ _⟩ h.pend _ _ _).request hi _ _ _
  · exact (h.drawDecay _ _).request hi _ _ _

theorem State.Legal.tick (h : s.Legal) (hi : s.inited = true) (dt : ℚ) : (s.tick dt).Legal := by
  have hi' : s.swap.inited = true := by simp [hi]
  have hs := h.swap hi
  exact (hs.withStage hi' (StageData.legal_age hs.cur dt) hs.pend s.swap.pendValid s.swap.pulsing _).update hi' dt

/-- What INIT leaves is legal. -/
theorem State.Legal.initialise (h : s.Legal) : s.initialise.Legal := by
  have z0 : RingLegal s.build.cw s.cfg.n0 (Memory.tabulate Color.black s.cfg.n0 fun _ => Color.black) :=
    RingLegal.tabulate fun _ _ => black_fits _
  have z1 : RingLegal s.build.cw s.cfg.n1 (Memory.tabulate Color.black s.cfg.n1 fun _ => Color.black) :=
    RingLegal.tabulate fun _ _ => black_fits _
  have zp := Memory.wf_tabulate (blank := 0#8) (n := packetLength) fun _ => 0#8
  have zb := Memory.below_tabulate (blank := 0#8) (n := packetLength) fun _ => 0#8
  unfold State.initialise
  generalize Memory.tabulate Color.black s.cfg.n0 (fun _ => Color.black) = m0 at *
  generalize Memory.tabulate Color.black s.cfg.n1 (fun _ => Color.black) = m1 at *
  generalize Memory.tabulate 0#8 packetLength (fun _ => 0#8) = p at *
  constructor
  · exact h.build
  · exact h.cfg
  · exact fun _ => ⟨rfl, rfl, rfl⟩
  · exact fun hn => absurd hn (by simp)
  · show Memory.wf _ (if _ then _ else _)
    split
    · exact z0.wf
    · exact h.ring0Wf
  · show Memory.wf _ (if _ then _ else _)
    split
    · exact z1.wf
    · exact h.ring1Wf
  · exact zp
  · exact fun c => if_pos (c : 0 < s.cfg.nrings) ▸ z0.below
  · exact fun c => if_pos (c : 1 < s.cfg.nrings) ▸ z1.below
  · exact zb
  · show Memory.fits s.build.cw (if _ then _ else _)
    split
    · exact z0.fits
    · exact h.ring0Fits
  · show Memory.fits s.build.cw (if _ then _ else _)
    split
    · exact z1.fits
    · exact h.ring1Fits
  · exact h.palFits
  · trivial
  · exact h.pend

end Sys2Proof.Machine
end

