-- ==== Sys2Proof/Tests/Slice0.lean ====
section
/-! SUPPORT. Tests of single steps against the vectors of spec/95_test_vectors.md, and a witness for every statement that
has hypotheses. -/

namespace Sys2Proof.Tests

open Sys2Proof.Machine

-- Each proof waits for the kernel to finish the ones before it: one after another, not one thread each.
set_option Elab.async false

/-! ### Small states -/

/-- An initialised block with one ring of `n` pixels; everything else as after reset. -/
def block (cw : ChannelWidth) (n : Nat) (m : Memory Color) : State :=
  { State.resetOf { Config.build with cw := cw } with
    inited := true
    nringsL := 1
    n0L := n
    n1L := 1
    ring0 := m
    cfg := { Config.defaults.cfg with n0 := n } }

/-- The state a step leaves. -/
def after : Host.Outcome State Fault Refusal → State
  | .next t => t
  | .fault _ => State.reset
  | .refused _ => State.reset

/-- The state after the one frame `f` on port F. -/
def send (s : State) (f : Frame) : State := after (step (s.withFrame f))

/-- The state after the one frame `f` on port C. -/
def sendC (s : State) (f : Frame) : State := after (step { s with inF := [], inC := [f] })

/-- The response frames on port F. -/
def answers (s : State) : List Frame := s.outF.map Response.frame

/-- The response frames on port C. -/
def answersC (s : State) : List Frame := s.outC.map Response.frame

/-- The pixels of ring 0. -/
def pixels (s : State) : List Color := (List.range s.n0L).map (s.pixel 0)

/-- Bytes `lo, …, lo + n - 1` of the packet. -/
def packet (s : State) (lo n : Nat) : List Byte := (List.range n).map (fun o => s.packetByte (lo + o))

/-- A pixel of one red channel, of one blue channel, and no light. -/
def red (v : Nat) : Color := ⟨v, 0, 0, 0⟩
def blue (v : Nat) : Color := ⟨0, 0, v, 0⟩
def off : Color := ⟨0, 0, 0, 0⟩

/-- The colour `c` of section 2.1 of the vectors. -/
def c : Color := ⟨200, 100, 50, 25⟩

/-! ### Well-formedness: an ill-formed colour is refused, for each colour operand -/

theorem test_wf_arc : (Instr.arc 0 0 0 ⟨256, 0, 0, 0⟩).wf .w8 = false := by decide
theorem test_wf_fill : (Instr.fill 0 ⟨0, 256, 0, 0⟩).wf .w8 = false := by decide
theorem test_wf_wrpix : (Instr.wrpix 0 0 ⟨0, 0, 65536, 0⟩).wf .w16 = false := by decide
theorem test_wf_setpal_primary : (Instr.setpal ⟨0, 0, 0, 256⟩ off off).wf .w8 = false := by decide
theorem test_wf_setpal_secondary : (Instr.setpal off ⟨0, 0, 0, 256⟩ off).wf .w8 = false := by decide
theorem test_wf_setpal_fill : (Instr.setpal off off ⟨0, 0, 0, 256⟩).wf .w8 = false := by decide
theorem test_wf_wide_channel : (Instr.fill 0 ⟨0, 256, 0, 0⟩).wf .w16 = true := by decide

/-! ### Decoding: one frame of every command, written out from R84, R86 and R87 -/

theorem test_decode_nop : decode .w8 [0x00#8] = .ok .nop := by decide
theorem test_decode_clear : decode .w8 [0x01#8] = .ok .clear := by decide
/-- V85. -/
theorem test_decode_arc : decode .w16
    [0x02#8, 0x00#8, 0x00#8, 0x0A#8, 0x00#8, 0x00#8, 0x00#8, 0x32#8, 0x00#8, 0x01#8, 0xC8#8, 0x00#8, 0x64#8, 0x00#8,
     0x32#8, 0x00#8, 0x19#8, 0x00#8] = .ok (.arc 0x000A0000#32 0x00320000#32 0x01#8 c) := by decide
/-- P1, frame 6. -/
theorem test_decode_fill : decode .w8 [0x03#8, 0x00#8, 0x40#8, 0x00#8, 0x00#8, 0x64#8, 0x64#8, 0x64#8, 0x64#8] =
    .ok (.fill 0x00004000#32 ⟨100, 100, 100, 100⟩) := by decide
theorem test_decode_decay : decode .w8 [0x04#8, 0x00#8, 0x80#8, 0x00#8, 0x00#8, 0x00#8, 0x00#8, 0x0A#8, 0x00#8] =
    .ok (.decay 0x00008000#32 0x000A0000#32) := by decide
theorem test_decode_a2l : decode .w8 [0x05#8, 0x01#8, 0x00#8, 0x00#8, 0x64#8, 0x00#8] =
    .ok (.a2l 0x01#8 0x00640000#32) := by decide
theorem test_decode_rdpix : decode .w8 [0x06#8, 0x00#8, 0x67#8, 0x01#8] = .ok (.rdpix 0x00#8 359#16) := by decide
theorem test_decode_wrpix : decode .w8 [0x07#8, 0x00#8, 0x67#8, 0x01#8, 0x01#8, 0x02#8, 0x03#8, 0x04#8] =
    .ok (.wrpix 0x00#8 359#16 ⟨1, 2, 3, 4⟩) := by decide
theorem test_decode_tick : decode .w8 [0x10#8, 0x00#8, 0x80#8, 0x00#8, 0x00#8] = .ok (.tick 0x00008000#32) := by decide
theorem test_decode_advance : decode .w8 [0x11#8, 0x03#8, 0x01#8] = .ok (.advance 0x03#8 0x01#8) := by decide
theorem test_decode_setpulse : decode .w8 [0x12#8, 0x01#8] = .ok (.setpulse 0x01#8) := by decide
/-- V55. -/
theorem test_decode_setpal : decode .w8
    [0x13#8, 0xFF#8, 0x00#8, 0x00#8, 0x00#8, 0x00#8, 0x00#8, 0xFF#8, 0x00#8, 0x00#8, 0x00#8, 0x00#8, 0xFF#8] =
    .ok (.setpal ⟨255, 0, 0, 0⟩ ⟨0, 0, 255, 0⟩ ⟨0, 0, 0, 255⟩) := by decide
theorem test_decode_rdstat : decode .w8 [0x14#8] = .ok .rdstat := by decide
/-- P3, frame 8. -/
theorem test_decode_encode : decode .w8 [0x20#8, 0x00#8, 0x01#8, 0x00#8, 0xFD#8, 0xFF#8, 0x02#8, 0x07#8, 0x01#8] =
    .ok (.encode 0x00#8 1#16 (BitVec.ofInt 16 (-3)) 0x02#8 0x07#8 0x01#8) := by decide
theorem test_decode_rdpkt : decode .w8 [0x21#8, 0x11#8, 0x02#8] = .ok (.rdpkt 529#16) := by decide
theorem test_decode_cfgwr : decode .w8 [0x30#8, 0x12#8, 0x00#8, 0x00#8, 0x96#8, 0x00#8] =
    .ok (.cfgwr 0x12#8 0x00960000#32) := by decide
theorem test_decode_cfgrd : decode .w8 [0x31#8, 0x12#8] = .ok (.cfgrd 0x12#8) := by decide
theorem test_decode_init : decode .w8 [0x32#8] = .ok .init := by decide
/-- V85: the 14-byte frame of R88 is malformed when CW is 16. -/
theorem test_decode_wrong_width : decode .w16
    [0x02#8, 0x00#8, 0x00#8, 0x0A#8, 0x00#8, 0x00#8, 0x00#8, 0x32#8, 0x00#8, 0x01#8, 0xC8#8, 0x64#8, 0x32#8, 0x19#8] =
    .error (.wrongLength .arc 14) := by decide
theorem test_decode_reserved : decode .w8 [0x08#8] = .error (.unknownOpcode 0x08#8) := by decide
/-- A table word: the operand bytes beyond its bits are 0. -/
theorem test_table_word : decodeTableWord 8 0x10 = some (.tick 0#32) := by decide +kernel
theorem test_fetch_word : answers (after (step (State.reset.withFetchWord 8 0x31))) = [[0x00#8, 0x01#8, 0#8, 0#8, 0#8]] := by
  decide +kernel

/-! ### CANVAS -/

/-- V37. -/
theorem test_clear : pixels (send (block .w8 2 [(0, c), (1, c)]) [0x01#8]) = [off, off] := by decide +kernel
/-- V71. -/
theorem test_clear_before_init : (answers (send State.reset [0x01#8]), (send State.reset [0x01#8]).statusWord) =
    ([[0x05#8]], 0x00100000#32) := by decide +kernel
/-- V12. -/
theorem test_arc_clockwise : pixels (after (exec (.arc 0x002D0000#32 0x00640000#32 0x01#8 c) (block .w8 12 []))) =
    [off, c, c, c, ⟨33, 16, 8, 4⟩, off, off, off, off, off, off, off] := by decide +kernel
/-- V14. -/
theorem test_arc_wraps_backward :
    pixels (after (exec (.arc 0x00140000#32 0x01540000#32 0x00#8 c) (block .w8 12 []))) =
      [c, off, off, off, off, off, off, off, off, off, ⟨33, 16, 8, 4⟩, c] := by decide +kernel
/-- V32. -/
theorem test_fill : pixels (after (exec (.fill 0x00008000#32 ⟨100, 100, 100, 100⟩)
    (block .w8 2 [(0, ⟨10, 200, 0, 255⟩)]))) = [⟨50, 200, 50, 255⟩, ⟨50, 50, 50, 50⟩] := by decide +kernel
/-- V35: the colour is scaled by the pulse first. -/
theorem test_fill_pulsing : pixels (after (exec (.fill 0x00008000#32 ⟨201, 100, 50, 25⟩)
    { block .w8 1 [] with pulsing := true })) = [⟨50, 25, 12, 6⟩] := by decide +kernel
/-- V28. -/
theorem test_decay_saturates : pixels (after (exec (.decay 0x00010000#32 0x000A0000#32)
    (block .w8 1 [(0, ⟨255, 100, 5, 1⟩)]))) = [⟨255, 110, 15, 11⟩] := by decide +kernel
/-- V39. -/
theorem test_decay_wide : pixels (after (exec (.decay 0x00040000#32 0x00000000#32)
    (block .w16 1 [(0, ⟨32767, 16384, 0, 0⟩)]))) = [⟨65535, 65535, 0, 0⟩] := by decide +kernel
/-- V40. -/
theorem test_a2l : answers (send (block .w8 12 []) [0x05#8, 0x00#8, 0x00#8, 0x00#8, 0x64#8, 0x00#8]) =
    [[0x00#8, 0x55#8, 0x55#8, 0x03#8, 0x00#8]] := by decide +kernel
/-- V38. -/
theorem test_rdpix : answers (send (block .w8 360 [(359, ⟨1, 2, 3, 4⟩)]) [0x06#8, 0x00#8, 0x67#8, 0x01#8]) =
    [[0x00#8, 0x01#8, 0x02#8, 0x03#8, 0x04#8]] := by decide +kernel
/-- R136: the spec's example, and by hand a pixel with 16-bit channels, whose `col` bytes are little-endian. -/
theorem test_rgbw_word :
    (rgbwWord .w8 ⟨1, 2, 3, 4⟩).toNat = 0x01020304 ∧ rgbwDigits .w8 ⟨1, 2, 3, 4⟩ = [0, 1, 0, 2, 0, 3, 0, 4] ∧
    (debugWord .w16 [0x00#8, 0x34#8, 0x12#8, 0x02#8, 0x00#8, 0x03#8, 0x00#8, 0xFF#8, 0xFF#8]).toNat =
      0x123400020003FFFF := by decide +kernel
/-- R136: one line of words for each ring. -/
theorem test_debug_lines :
    (debugLines .w8 [1, 2]
      [[0x00#8, 1#8, 2#8, 3#8, 4#8], [0x00#8, 5#8, 6#8, 7#8, 8#8], [0x00#8, 9#8, 0#8, 0#8, 0#8]]).map
        (·.map BitVec.toNat) = [[0x01020304], [0x05060708, 0x09000000]] := by decide +kernel
/-- V38. -/
theorem test_rdpix_beyond : answers (send (block .w8 360 []) [0x06#8, 0x00#8, 0x68#8, 0x01#8]) = [[0x02#8]] := by
  decide +kernel
/-- V38. -/
theorem test_wrpix : (send (block .w8 360 []) [0x07#8, 0x00#8, 0x67#8, 0x01#8, 0x01#8, 0x02#8, 0x03#8, 0x04#8]).ring0 =
    [(359, ⟨1, 2, 3, 4⟩)] := by decide +kernel

/-! ### STAGE -/

/-- The block of P2 with its configuration and palette. -/
def narrative (m : Memory Color) (cur pend : StageData) (valid : Bool) : State :=
  { block .w8 12 m with
    cfg :=
      { nrings := 1, n0 := 12, n1 := 1, flags := 3#3, resetTime := 1 / 2, startAccel := 60, startTargetSpeed := 60,
        advanceTime := 1, windupAccel := 60, windupTargetSpeed := 90, fillRate := 1, fadeTime := 1, blinkRate := 0 }
    pal := ⟨red 200, blue 200, ⟨0, 100, 0, 100⟩⟩
    cur := cur
    pend := pend
    pendValid := valid }

/-- P2, tick 9: the swap into Windup, the decay and both arcs. -/
theorem test_tick_windup :
    let t := after (exec (.tick 0x00008000#32)
      (narrative [(0, red 102), (1, red 128), (2, red 160), (3, red 200), (4, red 200), (5, red 50)]
        (.idle ⟨3 / 2, 135, 60, 1⟩) (.windup ⟨0, 135, 60, 135, 30, 60, 90⟩) true))
    pixels t = [red 81, red 102, red 128, off, blue 200, red 200, red 50, off, off, off, off, off] ∧
    t.cur = .windup ⟨1 / 2, 165, 90, 120, 60, 60, 90⟩ ∧ t.pendValid = false := by decide +kernel
/-- P2, tick 15: the collision trigger fires, and only the decay is drawn. -/
theorem test_tick_collision :
    let t := after (exec (.tick 0x00008000#32)
      (narrative [(0, red 200), (1, red 200), (3, blue 102), (4, red 81), (9, blue 200), (11, red 200)]
        (.windup ⟨3, 30, 90, 270, 90, 60, 90⟩) (.dark ⟨0, 0⟩) false))
    pixels t = [red 160, red 160, off, blue 81, red 64, off, off, off, off, blue 160, off, red 160] ∧
    t.cur = .windup ⟨7 / 2, 75, 90, 225, 90, 60, 90⟩ ∧ t.pend = .explosion ⟨0, 0, 1⟩ ∧ t.pendValid = true := by
  decide +kernel
/-- V53. -/
theorem test_advance_carries : (after (exec (.advance 0x03#8 0x00#8)
    (narrative [] (.starting ⟨0, 45, 60, 60, 60⟩) (.dark ⟨0, 0⟩) false))).pend =
      .windup ⟨0, 45, 60, 45, 30, 60, 90⟩ := by decide +kernel
/-- V52: a request that is not above the current stage is rejected and logged. -/
theorem test_advance_rejected :
    let t := sendC (narrative [] (.idle ⟨0, 0, 0, 0⟩) (.windup ⟨0, 0, 0, 0, 0, 0, 0⟩) true) [0x11#8, 0x01#8, 0x00#8]
    answersC t = [[0x01#8]] ∧ t.log = [⟨.rejected, 1, 2⟩] ∧ t.pend.tag = .windup ∧ t.sticky.errReject = true := by
  decide +kernel
/-- P4, step 12. -/
theorem test_setpulse : (sendC (block .w8 12 []) [0x12#8, 0x01#8]).pulsing = true := by decide +kernel
/-- V84. -/
theorem test_setpulse_bad_flag : answers (send (block .w8 12 []) [0x12#8, 0x02#8]) = [[0x02#8]] := by decide +kernel
/-- P4, step 7: accepted before INIT. -/
theorem test_setpal : (send State.reset
    [0x13#8, 0xC8#8, 0x64#8, 0x32#8, 0x19#8, 0x00#8, 0x00#8, 0xC8#8, 0x00#8, 0x00#8, 0x00#8, 0x00#8, 0x00#8]).pal =
      ⟨c, blue 200, off⟩ := by decide +kernel
/-- R239: Idle current, Windup pending, pulsing off, no errors. -/
theorem test_rdstat : answersC (sendC
    { block .w8 1 [] with cur := .idle ⟨0, 0, 0, 0⟩, pend := .windup ⟨0, 0, 0, 0, 0, 0, 0⟩, pendValid := true }
    [0x14#8]) = [[0x00#8, 0x3A#8, 0x01#8, 0x00#8, 0x00#8]] := by decide +kernel
/-- V55. -/
theorem test_control_lines :
    controlCommands .w8 0x00000000#32 (.advanceStage 3) = [.rdstat, .advance 0x03#8 0x00#8] ∧
    controlCommands .w8 0x00000180#32 (.advanceStage 4) = [.rdstat] ∧
    controlCommands .w8 0#32 (.advanceStage 9) = [] := by
  decide +kernel

/-! ### WENC -/

/-- The ring of section 2.3 of the vectors. -/
def four : Memory Color := [(0, ⟨1, 2, 3, 4⟩), (1, ⟨5, 6, 7, 8⟩), (2, ⟨9, 10, 11, 12⟩), (3, ⟨13, 14, 15, 16⟩)]

/-- V61. -/
theorem test_encode_reverse :
    let t := send (block .w8 8 four) [0x20#8, 0x00#8, 0x01#8, 0x00#8, 0xFD#8, 0xFF#8, 0x02#8, 0x07#8, 0x01#8]
    packet t 0 40 =
      [0x41#8, 0x72#8, 0x74#8, 0x2D#8, 0x4E#8, 0x65#8, 0x74#8, 0x00#8, 0x00#8, 0x50#8, 0x00#8, 0x0E#8, 0x00#8, 0x00#8,
       0x07#8, 0x01#8, 0x02#8, 0x00#8, 0#8, 0#8, 0#8, 0#8, 0#8, 0#8, 0#8, 0#8, 0x0D#8, 0x0E#8, 0x0F#8, 0x10#8, 0x09#8,
       0x0A#8, 0x0B#8, 0x0C#8, 0x05#8, 0x06#8, 0x07#8, 0x08#8, 0#8, 0#8] := by decide +kernel
/-- V68. -/
theorem test_encode_narrows : packet (after (exec (.encode 0#8 0#16 1#16 0#8 0#8 0#8)
    (block .w16 8 [(0, ⟨0x1234, 0x00FF, 0x0100, 0xFFFF⟩)]))) 18 4 = [0x34#8, 0xFF#8, 0x00#8, 0xFF#8] := by
  decide +kernel
/-- V67. -/
theorem test_rdpkt : answers (send { block .w8 8 [] with pkt := [(26, 0x05#8)] } [0x21#8, 0x1A#8, 0x00#8]) =
    [[0x00#8, 0x05#8]] := by decide +kernel
/-- V67. -/
theorem test_rdpkt_beyond : answers (send (block .w8 8 []) [0x21#8, 0x12#8, 0x02#8]) = [[0x02#8]] := by decide +kernel

/-! ### System -/

/-- V83: NOP on port C. -/
theorem test_nop : answersC (sendC (block .w8 8 []) [0x00#8]) = [[0x00#8]] := by decide +kernel
/-- V74. -/
theorem test_init :
    let t := send { State.reset with cfg := { Config.defaults.cfg with n0 := 360 } } [0x32#8]
    answers t = [[0x00#8]] ∧ t.n0L = 360 ∧ t.cur = .dark ⟨0, 0⟩ ∧ t.statusWord = 0x00000100#32 := by decide +kernel
/-- V75. -/
theorem test_init_twice : answers (send (block .w8 8 []) [0x32#8]) = [[0x05#8]] := by decide +kernel
/-- V79. -/
theorem test_cfgwr : (send State.reset [0x30#8, 0x12#8, 0x00#8, 0x00#8, 0x96#8, 0x00#8]).cfg.startTargetSpeed = 150 := by
  decide +kernel
/-- V76. -/
theorem test_cfgwr_layout_after_init :
    let t := send (block .w8 360 []) [0x30#8, 0x01#8, 0x0C#8, 0x00#8, 0x00#8, 0x00#8]
    answers t = [[0x05#8]] ∧ t.cfg.n0 = 360 := by decide +kernel
/-- V80: the register holds -1. -/
theorem test_cfgrd : answers (send { State.reset with cfg := { Config.defaults.cfg with resetTime := -1 } }
    [0x31#8, 0x10#8]) = [[0x00#8, 0x00#8, 0x00#8, 0xFF#8, 0xFF#8]] := by decide +kernel
/-- V77. -/
theorem test_cfgrd_reserved : answers (send State.reset [0x31#8, 0x19#8]) = [[0x02#8]] := by decide +kernel
/-- V72: the port is checked before the state. -/
theorem test_port_before_state : answersC (sendC State.reset [0x01#8]) = [[0x04#8]] := by decide +kernel
/-- V73. -/
theorem test_bad_length : answers (send State.reset [0x10#8, 0x00#8, 0x80#8, 0x00#8]) = [[0x03#8]] := by decide +kernel

/-! ### A witness for every statement that has hypotheses

Each theorem bears the name of the statement it serves. Where the statement has several clauses over one input, it
meets each of them, at the ends of its range. -/

/-- An initialised block with one lit pixel. -/
def ready : State := block .w8 12 [(0, c)]

/-- The same block with a second ring. -/
def two : State := { ready with nringsL := 2, n1L := 8, cfg := { ready.cfg with nrings := 2, n1 := 8 } }

/-- The block in a stage, with or without a pending one. -/
def inStage (d : StageData) : State := narrative [(0, c)] d (.dark ⟨0, 0⟩) false

/-- Every command ends in a next state, so the state after it can be named. -/
theorem exec_next (i : Instr) (s : State) : exec i s = .next (after (exec i s)) := by
  have h : ∃ r : CmdResult, exec i s = s.finish r := by cases i <;> exact ⟨_, rfl⟩
  obtain ⟨r, hr⟩ := h
  obtain ⟨t, ht⟩ := s.finish_ends r
  rw [hr, ht]
  rfl

theorem legal_ready : ready.Legal where
  build := by decide +kernel
  cfg := by decide +kernel
  layout := by decide +kernel
  beforeInit := by decide +kernel
  ring0Wf := by decide +kernel
  ring1Wf := by decide +kernel
  pktWf := by decide +kernel
  ring0Below := by decide +kernel
  ring1Below := by decide +kernel
  pktBelow := by decide +kernel
  ring0Fits := by decide +kernel
  ring1Fits := by decide +kernel
  palFits := by decide +kernel
  cur := trivial
  pend := trivial

/-! Encoding. -/

theorem witness_DecodeOfEncodedCommand :
    (Instr.arc 0 0 0 ⟨255, 0, 255, 0⟩).wf .w8 = true ∧ (Instr.setpal ⟨65535, 0, 0, 0⟩ off c).wf .w16 = true := by decide

theorem witness_EncodeOfDecodedFrame : decode .w8 [0x12#8, 0xFF#8] = .ok (.setpulse 0xFF#8) := by decide

/-- A reserved opcode, one byte short, one byte long; then a frame of the right length. -/
theorem witness_MalformedFrameRaisesBadOpc :
    (∀ f ∈ [[0x08#8], [0x10#8, 0#8, 0#8, 0#8], [0x10#8, 0#8, 0#8, 0#8, 0#8, 0#8]],
      f ≠ [] ∧ (ready.withFrame f).resetIn = false ∧ (ready.withFrame f).fetch = some (f, (ready.withFrame f).takeFrame .F) ∧
      ∀ o ∈ Opcode.all, ¬ (f.head? = some o.byte ∧ f.length = o.frameLength .w8)) ∧
    (ready.withFrame [0x12#8, 0#8]).fetch = some ([0x12#8, 0#8], (ready.withFrame [0x12#8, 0#8]).takeFrame .F) ∧
    [0x12#8, 0#8] ≠ [] ∧ [0x12#8, 0#8].head? = some Opcode.setpulse.byte ∧ [0x12#8, 0#8].length = Opcode.setpulse.frameLength .w8 := by
  decide +kernel

/-! The step. -/

theorem witness_StepRunsTheDecodedCommand :
    ready.resetIn = false ∧ decode ready.build.cw [0x00#8] = .ok .nop ∧
    ({ ready with inF := [[0x00#8]] } : State).inC = [] ∧ ({ ready with inC := [[0x00#8]] } : State).inF = [] := by
  decide +kernel

theorem witness_EitherWaitingPortIsTaken :
    decode ready.build.cw [0x01#8] = .ok .clear ∧ decode ready.build.cw [0x14#8] = .ok .rdstat ∧
    ({ ready with inF := [[0x01#8]], inC := [[0x14#8]] } : State).resetIn = false ∧
    ready.inF = [] ∧ ready.inC = [] ∧ ready.resetIn = false ∧
    (ready.withFrame []).fetch = some ([], (ready.withFrame []).takeFrame .F) := by decide +kernel

theorem witness_ResetLeavesTheResetState : ({ ready with resetIn := true } : State).resetIn = true := rfl

theorem witness_ResetStateIsLegal : Config.build.legal ∧ ({ Config.build with cw := .w16, nmax := 1 } : Build).legal := by
  decide +kernel

theorem witness_StepKeepsLegalStates : ready.Legal ∧ step ready = .next ready := ⟨legal_ready, rfl⟩

/-! Refusals and responses: a command that answers OK and one that is refused. -/

theorem witness_RefusalChangesOnlyItsRecord :
    exec .clear ready = .next (after (exec .clear ready)) ∧
    exec (.advance 6#8 1#8) ready = .next (after (exec (.advance 6#8 1#8) ready)) := ⟨exec_next _ _, exec_next _ _⟩

theorem witness_OneResponseFrameOnTheCommandsPort :
    exec (.rdpix 0#8 0#16) ready = .next (after (exec (.rdpix 0#8 0#16) ready)) ∧
    exec (.rdpix 1#8 0#16) ready = .next (after (exec (.rdpix 1#8 0#16) ready)) := ⟨exec_next _ _, exec_next _ _⟩

theorem witness_WrongPortRaisesBadPort :
    (({ ready with port := .C } : State).port = .C ∧ acceptedOnPortC .init = false) ∧
    (ready.port = .F ∧ exec .init ready = .next (after (exec .init ready))) ∧
    (acceptedOnPortC .nop = true ∧ exec .nop ready = .next (after (exec .nop ready))) :=
  ⟨⟨rfl, rfl⟩, ⟨rfl, exec_next _ _⟩, rfl, exec_next _ _⟩

theorem witness_WrongStateRaisesBadState :
    (State.reset.port = .F ∧ State.reset.inited = false ∧ acceptedBeforeInit .clear = false) ∧
    (ready.port = .F ∧ ready.inited = true) ∧ ((0#8).toNat ≤ 2 ∧ (2#8).toNat ≤ 2 ∧ ¬ (3#8).toNat ≤ 2) ∧
    exec .clear ready = .next (after (exec .clear ready)) := ⟨by decide +kernel, by decide +kernel, by decide, exec_next _ _⟩

/-- For every cause, an operand that just has it; and one that just has it not. -/
theorem witness_RangeIsRaisedOnExactlyItsCauses :
    (ready.port = .F ∧ ready.inited = true) ∧
    (rangeCause ready (.arc 0 0 2#8 c) ∧ ¬ rangeCause ready (.arc 0 0 1#8 c)) ∧
    (rangeCause ready (.advance 6#8 0#8) ∧ rangeCause ready (.advance 5#8 2#8) ∧ ¬ rangeCause ready (.advance 5#8 1#8)) ∧
    (rangeCause ready (.setpulse 2#8) ∧ ¬ rangeCause ready (.setpulse 1#8)) ∧
    (rangeCause ready (.a2l 1#8 0) ∧ ¬ rangeCause ready (.a2l 0#8 0)) ∧
    (rangeCause ready (.rdpix 0#8 12#16) ∧ ¬ rangeCause ready (.rdpix 0#8 11#16)) ∧
    (rangeCause ready (.wrpix 1#8 0#16 c) ∧ ¬ rangeCause ready (.wrpix 0#8 11#16 c)) ∧
    (rangeCause ready (.fill 0x00010001#32 c) ∧ rangeCause ready (.fill 0xFFFFFFFF#32 c) ∧
      ¬ rangeCause ready (.fill 0x00010000#32 c) ∧ ¬ rangeCause ready (.fill 0#32 c)) ∧
    (rangeCause ready (.tick 0xFFFFFFFF#32) ∧ ¬ rangeCause ready (.tick 0#32)) ∧
    (rangeCause ready (.encode 0#8 1#16 12#16 0#8 0#8 0#8) ∧ rangeCause ready (.encode 0#8 0#16 12#16 117#8 0#8 0#8) ∧
      ¬ rangeCause ready (.encode 0#8 0#16 12#16 116#8 0#8 0#8)) ∧
    (rangeCause ready (.rdpkt 530#16) ∧ ¬ rangeCause ready (.rdpkt 529#16)) ∧
    (rangeCause State.reset (.cfgwr 0#8 3#32) ∧ rangeCause State.reset (.cfgwr 1#8 0#32) ∧
      rangeCause State.reset (.cfgwr 2#8 65536#32) ∧ ¬ rangeCause State.reset (.cfgwr 2#8 65535#32)) ∧
    (rangeCause ready (.cfgrd 4#8) ∧ rangeCause ready (.cfgrd 0x0F#8) ∧ rangeCause ready (.cfgrd 0x19#8) ∧
      ¬ rangeCause ready (.cfgrd 3#8) ∧ ¬ rangeCause ready (.cfgrd 0x10#8) ∧ ¬ rangeCause ready (.cfgrd 0x18#8)) ∧
    exec .clear ready = .next (after (exec .clear ready)) := by
  refine ⟨by decide +kernel, ?_, ?_, ?_, ?_, ?_, ?_, ?_, ?_, ?_, ?_, ?_, ?_, exec_next _ _⟩ <;>
    (unfold rangeCause; decide +kernel)

/-! The CANVAS family. -/

theorem witness_ClearZeroesEveryPixel :
    (ready.port = .F ∧ ready.inited = true ∧ ready.nringsL ≤ 1 ∧ 0 < ready.nringsL ∧ 11 < ready.ringSize 0) ∧
    (two.port = .F ∧ two.inited = true ∧ 1 < two.nringsL ∧ 7 < two.ringSize 1) ∧
    ({ ready with nringsL := 0 } : State).nringsL = 0 := by decide +kernel

theorem witness_ArcPaintsSpanThenBoundary :
    ready.port = .F ∧ ready.inited = true ∧ isFlag 0#8 false ∧ isFlag 1#8 true ∧ 0 < ready.nringsL ∧
    11 < ready.ringSize 0 := by
  refine ⟨rfl, rfl, .inl ⟨rfl, rfl⟩, .inr ⟨rfl, rfl⟩, by decide +kernel, by decide +kernel⟩

theorem witness_FillRaisesEveryChannel :
    ready.port = .F ∧ ready.inited = true ∧ (0 ≤ numOf 0#32 ∧ numOf 0#32 ≤ 1) ∧
    (0 ≤ numOf 0x00010000#32 ∧ numOf 0x00010000#32 ≤ 1) ∧ 0 < ready.nringsL ∧ 0 < ready.ringSize 0 := by decide +kernel

theorem witness_FillIsMonotone :
    0 < ready.nringsL ∧ 0 < ready.ringSize 0 ∧ (0 : ℚ) ≤ 0 ∧ (0 : ℚ) ≤ 1 ∧ (1 : ℚ) ≤ 1 := by decide +kernel

theorem witness_DecayScalesEveryChannel :
    ready.port = .F ∧ ready.inited = true ∧ 0 < ready.nringsL ∧ 11 < ready.ringSize 0 := by decide +kernel

theorem witness_DecayIdentityAndZero : ready.Legal ∧ 0 < ready.nringsL ∧ 0 < ready.ringSize 0 :=
  ⟨legal_ready, by decide +kernel, by decide +kernel⟩

theorem witness_RepeatedDecayReachesZero :
    (0 : ℚ) ≤ 97 / 100 ∧ (97 / 100 : ℚ) < 1 ∧ (⟨255, 1, 0, 255⟩ : Color).fits .w8 := by decide +kernel

theorem witness_A2lAnswersTheFractionalIndex :
    ready.port = .F ∧ ready.inited = true ∧ ready.nringsL ≤ (1#8).toNat ∧ (0#8).toNat < ready.nringsL := by
  decide +kernel

theorem witness_FractionalIndexIsInRangeAndPeriodic : 1 ≤ 1 := le_refl 1

theorem witness_RdpixAnswersThePixel :
    ready.port = .F ∧ ready.inited = true ∧ ready.nringsL ≤ (1#8).toNat ∧ ready.ringSize 0 ≤ (12#16).toNat ∧
    (0#8).toNat < ready.nringsL ∧ (11#16).toNat < ready.ringSize 0 ∧
    (ready.pixel (0#8).toNat (11#16).toNat).fits ready.build.cw := by decide +kernel

theorem witness_WrpixWritesOnePixel :
    (ready.port = .F ∧ ready.inited = true ∧ ready.nringsL ≤ 2 ∧ ready.nringsL ≤ (1#8).toNat ∧
      ready.ringSize 0 ≤ (12#16).toNat ∧ (0#8).toNat < ready.nringsL ∧ (11#16).toNat < ready.ringSize 0) ∧
    (two.port = .F ∧ two.inited = true ∧ two.nringsL ≤ 2 ∧ two.nringsL ≤ (2#8).toNat ∧
      two.ringSize 1 ≤ (8#16).toNat ∧ (1#8).toNat < two.nringsL ∧ (7#16).toNat < two.ringSize 1) := by decide +kernel

/-! The STAGE family. -/

theorem witness_NegativeTickIsRefusedWhole :
    ready.port = .F ∧ ready.inited = true ∧ numOf 0xFFFFFFFF#32 < 0 := by decide +kernel

theorem witness_SwapTakesThePendingStage :
    ready.pendValid = false ∧
    (({ ready with pend := .fade ⟨0, 0⟩, pendValid := true } : State).pendValid = true ∧
      (StageData.fade ⟨0, 0⟩).tag ≠ .dark) ∧
    (({ ready with pend := .dark ⟨0, 0⟩, pendValid := true } : State).pendValid = true ∧
      (StageData.dark ⟨0, 0⟩).tag = .dark) := by decide +kernel

/-- A TICK in each stage, with no stage pending: the smallest `dt`, 0, and the half second of P2. -/
theorem witness_TickInDark : (inStage (.dark ⟨0, 1 / 2⟩)).port = .F ∧ (inStage (.dark ⟨0, 1 / 2⟩)).inited = true ∧
    0 ≤ numOf 0#32 ∧ 0 ≤ numOf 0x00008000#32 ∧ (inStage (.dark ⟨0, 1 / 2⟩)).swap.cur = .dark ⟨0, 1 / 2⟩ := by
  decide +kernel

theorem witness_TickInStarting :
    let s := inStage (.starting ⟨0, 15, 30, 60, 60⟩)
    s.port = .F ∧ s.inited = true ∧ 0 ≤ numOf 0x00008000#32 ∧ s.swap.cur = .starting ⟨0, 15, 30, 60, 60⟩ ∧
    norm360 (15 + 30 * numOf 0x00008000#32) = 30 := by decide +kernel

theorem witness_TickInIdle :
    let s := inStage (.idle ⟨2, 350, 360, 2⟩)
    s.port = .F ∧ s.inited = true ∧ 0 ≤ numOf 0x00008000#32 ∧ s.swap.cur = .idle ⟨2, 350, 360, 2⟩ ∧
    norm360 (350 + 360 * numOf 0x00008000#32) = 170 := by decide +kernel

theorem witness_TickInWindup :
    let s := inStage (.windup ⟨3, 30, 90, 270, 90, 60, 90⟩)
    s.port = .F ∧ s.inited = true ∧ 0 ≤ numOf 0x00008000#32 ∧
    s.swap.cur = .windup ⟨3, 30, 90, 270, 90, 60, 90⟩ ∧ norm360 (30 + 90 * numOf 0x00008000#32) = 75 := by
  decide +kernel

theorem witness_TickInExplosion :
    let s := inStage (.explosion ⟨0, 1, 1⟩)
    s.port = .F ∧ s.inited = true ∧ 0 ≤ numOf 0x00008000#32 ∧ s.swap.cur = .explosion ⟨0, 1, 1⟩ ∧
    (min (max (1 + 1 * numOf 0x00008000#32) 0) 1 : ℚ) = 1 := by decide +kernel

theorem witness_TickInFade :
    let s := inStage (.fade ⟨1, 1⟩)
    s.port = .F ∧ s.inited = true ∧ 0 ≤ numOf 0x00008000#32 ∧ s.swap.cur = .fade ⟨1, 1⟩ := by decide +kernel

theorem witness_TickChangesStageOnlyBySwap :
    (ready.port = .F ∧ ready.inited = true ∧ 0 ≤ numOf 0#32) ∧
    exec (.tick 0#32) ready = .next (after (exec (.tick 0#32) ready)) := ⟨by decide +kernel, exec_next _ _⟩

theorem witness_TickEnteringDarkClears :
    let s := { ready with pend := .dark ⟨0, 0⟩, pendValid := true, pulsing := true }
    (s.port = .F ∧ s.inited = true ∧ 0 ≤ numOf 0#32 ∧ s.pendValid = true ∧ s.pend.tag = .dark) ∧
    exec (.tick 0#32) s = .next (after (exec (.tick 0#32) s)) ∧
    ¬ (ready.pendValid = true ∧ ready.pend.tag = .dark) := ⟨by decide +kernel, exec_next _ _, by decide +kernel⟩

/-- In Starting, in Windup, and in Explosion with a rate above and below 0. -/
theorem witness_TickKeepsSpeedsAndRatiosInBounds :
    (0 ≤ numOf 0x00008000#32 ∧ (inStage (.dark ⟨0, 0⟩)).port = .F ∧ (inStage (.dark ⟨0, 0⟩)).inited = true) ∧
    (∀ d ∈ [StageData.starting ⟨0, 15, 30, 60, 60⟩, .windup ⟨3, 30, 90, 270, 90, 60, 90⟩, .explosion ⟨0, 1, 1⟩,
        .explosion ⟨0, 0, -1⟩],
      (inStage d).swap.cur = d ∧ (after (exec (.tick 0x00008000#32) (inStage d))).cur.tag = d.tag) ∧
    ((1 : ℚ) ≤ 1 ∧ (0 : ℚ) ≤ 1 ∧ (-1 : ℚ) < 0) ∧
    ∀ d, exec (.tick 0x00008000#32) (inStage d) = .next (after (exec (.tick 0x00008000#32) (inStage d))) :=
  ⟨by decide +kernel, by decide +kernel, by decide +kernel, fun _ => exec_next _ _⟩

theorem witness_AdvanceGuardsThenMakesPending :
    ready.inited = true ∧ isFlag 0#8 false ∧ isFlag 1#8 true ∧ 5 < (6#8).toNat ∧ (5#8).toNat = Stage.fade.num ∧
    (0#8).toNat = Stage.dark.num := ⟨rfl, .inl ⟨rfl, rfl⟩, .inr ⟨rfl, rfl⟩, by decide, rfl, rfl⟩

theorem witness_StageConstructor :
    (StageData.fade ⟨0, 0⟩).tag = .fade ∧ (StageData.dark ⟨0, 0⟩).tag = .dark ∧
    (StageData.explosion ⟨0, 0, 0⟩).tag = .explosion := ⟨rfl, rfl, rfl⟩

theorem witness_AdvancedStageIsCurrentAfterTheNextTick :
    let u := after (exec (.advance 3#8 0#8) ready)
    let t := after (exec (.tick 0#32) { u with port := .F })
    (ready.inited = true ∧ 0 ≤ numOf 0#32 ∧ (3#8).toNat = Stage.windup.num ∧ ready.cur.tag.num < (3#8).toNat) ∧
    exec (.advance 3#8 0#8) ready = .next u ∧ (u.sticky = ready.sticky ∧ u.log = ready.log) ∧
    exec (.tick 0#32) { u with port := .F } = .next t :=
  ⟨by decide +kernel, exec_next _ _, by decide +kernel, exec_next _ _⟩

theorem witness_SetpulseSetsTheFlag :
    ready.inited = true ∧ isFlag 0#8 false ∧ isFlag 1#8 true ∧ 1 < (2#8).toNat :=
  ⟨rfl, .inl ⟨rfl, rfl⟩, .inr ⟨rfl, rfl⟩, by decide⟩

/-! The WENC family. -/

/-- Out of bounds by one pixel, by one slot, by the ring; and the two largest segments that fit, in both directions. -/
theorem witness_EncodeBuildsThePacket :
    (ready.port = .F ∧ ready.inited = true) ∧ (12#16).toInt.natAbs = 12 ∧ (BitVec.ofInt 16 (-12)).toInt.natAbs = 12 ∧
    (ready.nringsL ≤ (1#8).toNat ∧ ready.ringSize 0 < (1#16).toNat + 12 ∧ 128 < (117#8).toNat + 12) ∧
    ((0#8).toNat < ready.nringsL ∧ (0#16).toNat + 12 ≤ ready.ringSize 0 ∧ (116#8).toNat + 12 ≤ 128) := by
  decide +kernel

theorem witness_RdpktAnswersTheByte :
    ready.port = .F ∧ ready.inited = true ∧ 530 ≤ (530#16).toNat ∧ (529#16).toNat < 530 := by decide +kernel

/-! The system commands. -/

theorem witness_InitEntersTheInitialState :
    (State.reset.port = .F ∧ State.reset.inited = false) ∧ (ready.port = .F ∧ ready.inited = true) := by decide +kernel

theorem witness_CfgwrWritesTheRegister :
    (ready.port = .F ∧ ready.inited = true) ∧ (State.reset.port = .F ∧ State.reset.inited = false) ∧
    (3 < (4#8).toNat ∧ (15#8).toNat < 0x10 ∧ 0x18 < (0x19#8).toNat) ∧ (2#8).toNat ≤ 2 ∧
    (1 ≤ (1#32).toNat ∧ (65535#32).toNat ≤ State.reset.build.nmax ∧ ¬ (65536#32).toNat ≤ State.reset.build.nmax) := by
  decide +kernel

theorem witness_CfgrdAnswersTheRegister :
    ready.port = .F ∧ (∀ x, q16Of x = BitVec.ofInt 32 ⌊x * 65536⌋) ∧ 3 < (4#8).toNat ∧ (15#8).toNat < 0x10 ∧
    0x18 < (0x19#8).toNat := ⟨rfl, fun _ => rfl, by decide, by decide, by decide⟩

theorem witness_CfgrdReadsBackWhatCfgwrWrote :
    let t := after (exec (.cfgwr 3#8 0xFFFFFFFF#32) ready)
    ready.port = .F ∧ exec (.cfgwr 3#8 0xFFFFFFFF#32) ready = .next t ∧ t.sticky = ready.sticky ∧
    ¬ rangeCause ready (.cfgwr 3#8 0xFFFFFFFF#32) ∧ ¬ (ready.inited = true ∧ (3#8).toNat ≤ 2) := by
  refine ⟨rfl, exec_next _ _, by decide +kernel, ?_, by decide +kernel⟩
  unfold rangeCause
  decide +kernel

/-! Whole-machine rules. -/

theorem witness_LatchedStateOnlyReleasedByReset :
    exec .init State.reset = .next (after (exec .init State.reset)) ∧
    exec .clear { ready with sticky := ⟨true, true, true, true, true⟩ } =
      .next (after (exec .clear { ready with sticky := ⟨true, true, true, true, true⟩ })) :=
  ⟨exec_next _ _, exec_next _ _⟩

theorem witness_StateIsWrittenOnlyByItsWriters :
    exec .clear ready = .next (after (exec .clear ready)) ∧ (after (exec .clear ready)).ring0 ≠ ready.ring0 :=
  ⟨exec_next _ _, by decide +kernel⟩

theorem witness_PortCReachesOnlyItsState :
    ({ ready with port := .C } : State).port = .C ∧
    exec (.setpulse 1#8) { ready with port := .C } = .next (after (exec (.setpulse 1#8) { ready with port := .C })) :=
  ⟨rfl, exec_next _ _⟩

theorem witness_UnspecifiedResetStateIsNotReadable :
    State.reset.inited = false ∧ State.reset.pendValid = false ∧ State.reset.cfg.nrings = 1 ∧
    ({ State.reset with cfg := { Config.defaults.cfg with nrings := 2 } } : State).inited = false ∧
    (after (exec .init State.reset)).inited = true := by decide +kernel

theorem witness_ChannelLaws : 255 ≤ ChannelWidth.w8.cmax ∧ 65535 ≤ ChannelWidth.w16.cmax ∧ (-1 : ℚ) < 0 ∧
    ((ChannelWidth.w8.cmax : ℚ) + 1 ≤ 256) ∧ c.fits .w8 := by decide +kernel

theorem witness_ControlLinesBecomeCommands :
    5 < 6 ∧ 5 ≤ 5 ∧ (0x80#32).getLsbD 7 = true ∧ (0x7F#32).getLsbD 7 = false ∧
    Palette.fits .w8 ⟨⟨255, 0, 0, 0⟩, Color.black, Color.black⟩ ∧
    ¬ Palette.fits .w8 ⟨⟨256, 0, 0, 0⟩, Color.black, Color.black⟩ ∧
    Instr.rdstat ∈ controlCommands .w8 0#32 (.advanceStage 5) := by decide

end Sys2Proof.Tests
end

section
/-! PROOFS. The laws of the numeric functions: channel arithmetic (R110, R111) and the sine (R10). -/

namespace Sys2Proof.Machine

/-! ### Channel arithmetic -/

/-- `sat` keeps the order of the integers (R11). -/
theorem sat_mono (cw : ChannelWidth) : Monotone (sat cw) := fun _ _ h =>
  Int.toNat_le_toNat (min_le_min_right _ (max_le_max_right _ h))

/-- A greater number never becomes a lesser channel value (R110). -/
theorem chan_mono (cw : ChannelWidth) : Monotone (chan cw) := fun _ _ h => sat_mono cw (Int.floor_mono h)

/-- A channel value stays as it is (R110). -/
theorem chan_natCast {cw : ChannelWidth} {v : Nat} (h : v ≤ cw.cmax) : chan cw v = v := by
  unfold chan sat
  rw [Int.floor_natCast]
  omega

/-- Numbers beyond CMAX saturate (R110). -/
theorem chan_of_cmax_le {cw : ChannelWidth} {x : ℚ} (h : (cw.cmax : ℚ) ≤ x) : chan cw x = cw.cmax :=
  le_antisymm (chan_le cw x) <|
    calc cw.cmax = chan cw cw.cmax := (chan_natCast le_rfl).symm
      _ ≤ chan cw x := chan_mono cw h

/-- Numbers not above zero clamp at zero (R110). -/
theorem chan_of_nonpos {cw : ChannelWidth} {x : ℚ} (h : x ≤ 0) : chan cw x = 0 :=
  Nat.le_zero.mp <|
    calc chan cw x ≤ chan cw (0 : Nat) := chan_mono cw (by exact_mod_cast h)
      _ = 0 := chan_natCast (Nat.zero_le _)

/-- Scaling by one keeps a Color of the build (R111). -/
theorem scale_one {cw : ChannelWidth} {c : Color} (h : c.fits cw) : scale cw c 1 = c := by
  obtain ⟨hr, hg, hb, hw⟩ := h
  simp only [scale, mul_one, chan_natCast hr, chan_natCast hg, chan_natCast hb, chan_natCast hw]

/-- Scaling by zero leaves no light (R111). -/
theorem scale_zero (cw : ChannelWidth) (c : Color) : scale cw c 0 = Color.black := by
  simp only [scale, mul_zero, chan_of_nonpos le_rfl, Color.black]

/-- Scaling a channel is monotone in the ratio, of either sign (R110). -/
theorem chan_mul_mono (cw : ChannelWidth) (v : Nat) {r₁ r₂ : ℚ} (h : r₁ ≤ r₂) :
    chan cw (v * r₁) ≤ chan cw (v * r₂) :=
  chan_mono cw (mul_le_mul_of_nonneg_left h (Nat.cast_nonneg v))

/-- Settles O59: each law is one of `chan`, which saturates and clamps because it is monotone and keeps the channel
values. -/
theorem channelLaws : Obligations.ChannelLaws := by
  intro cw
  refine ⟨fun v h => chan_natCast h, fun x h => chan_of_cmax_le (by linarith), fun x h => chan_of_nonpos h.le,
    fun x y h => chan_mono cw h, fun v h => ?_, fun v => ?_, fun c h => scale_one h, scale_zero cw,
    fun c r₁ r₂ _ h => ⟨chan_mul_mono cw _ h, chan_mul_mono cw _ h, chan_mul_mono cw _ h, chan_mul_mono cw _ h⟩⟩
  · rw [mul_one, add_zero, chan_natCast h]
  · exact chan_of_nonpos (by simp)

/-! ### The sine -/

/-- Every value of the sine, the free ones too, lies in `[-1, 1]` (R10). -/
theorem sinpi_mem_Icc (h : ℚ) : sinpi h ∈ Set.Icc (-1) 1 := by
  unfold sinpi
  dsimp only
  split_ifs
  · norm_num
  · norm_num
  · norm_num
  · norm_num
  · exact ⟨le_max_left _ _, max_le (by norm_num) (min_le_left _ _)⟩

/-- The sine has period 2, since it looks at the phase within a whole turn only (R10). -/
theorem sinpi_add_two (h : ℚ) : sinpi (h + 2) = sinpi h := by
  have turn : ⌊(h + 2) / 2⌋ = ⌊h / 2⌋ + 1 := by
    rw [add_div, div_self two_ne_zero, Int.floor_add_one]
  have phase : h + 2 - 2 * ((⌊h / 2⌋ + 1 : ℤ) : ℚ) = h - 2 * (⌊h / 2⌋ : ℤ) := by
    push_cast
    ring
  unfold sinpi
  rw [turn, phase]

/-- Within the first whole turn the sine is the table of R10 over the free values. -/
theorem sinpi_of_first_turn {h : ℚ} (h0 : 0 ≤ h) (h2 : h < 2) :
    sinpi h = if h = 0 then 0 else if h = 1 / 2 then 1 else if h = 1 then 0 else if h = 3 / 2 then -1
      else max (-1) (min 1 (Config.sinRaw h)) := by
  have turn : ⌊h / 2⌋ = 0 := Int.floor_eq_zero_iff.mpr ⟨by linarith, by linarith⟩
  simp [sinpi, turn]

/-- The pulse value lies in `[0, 1]` (R29). -/
theorem pulseValue_mem_Icc (h : ℚ) : pulseValue h ∈ Set.Icc 0 1 := by
  obtain ⟨lo, hi⟩ := sinpi_mem_Icc h
  unfold pulseValue
  exact ⟨by linarith, by linarith⟩

/-- Settles O58: the range and the period hold at every phase, and the four fixed values stand in the first turn. -/
theorem sineLaws : Obligations.SineLaws := by
  refine ⟨sinpi_mem_Icc, ?_, ?_, ?_, ?_, sinpi_add_two, pulseValue_mem_Icc⟩
  all_goals
    rw [sinpi_of_first_turn (by norm_num) (by norm_num)]
    norm_num

end Sys2Proof.Machine
end

section
/-! PROOFS. DECAY as a command (R130). -/

namespace Sys2Proof.Machine

/-- On port F of an initialised block every command passes the common checks (R258). -/
theorem State.permit_portF {s : State} (hp : s.port = .F) (hi : s.inited = true) (c i : Bool) (r : CmdResult) :
    s.permit c i r = r :=
  State.permit_pass (fun h => by simp [hp] at h) (fun h => by simp [hi] at h)

/-- DECAY is accepted whatever its operands are, and leaves what its body draws (R130). -/
theorem exec_decay {s : State} (hp : s.port = .F) (hi : s.inited = true) (multiplier addition : Q16) :
    exec (.decay multiplier addition) s =
      .next ((s.drawDecay (numOf multiplier) (numOf addition)).respond .ok .none) :=
  congrArg s.finish (State.permit_portF hp hi false false _)

/-- Settles O22: the rings that DECAY leaves are those of its body, pixel by pixel `decayColor`. -/
theorem decayScalesEveryChannel : Obligations.DecayScalesEveryChannel := by
  intro s multiplier addition hp hi
  refine ⟨_, _, s.drawDecay (numOf multiplier) (numOf addition), rfl, exec_decay hp hi _ _, ?_, ?_, ?_⟩
  · intro h
    exact if_neg (by omega)
  · intro h
    exact if_neg (by omega)
  · intro k i hk hx
    exact s.pixel_drawDecay _ _ k i hk hx

end Sys2Proof.Machine
end

section
/-! PROOFS. What a command leaves in the record: the sticky bits and the LOG events (R13, R46, R47, R251). -/

namespace Sys2Proof.Machine

/-! ### Bodies that keep the record -/

/-- A body leaves the record to `State.finish`: carried out, it writes no sticky bit and no LOG event; refused, its
code is not `OK` and it has a LOG event only where `logs` allows one (R251). -/
def CmdResult.KeepsRecord (s : State) (logs : Prop) : CmdResult → Prop
  | .ok (s', _) => s'.sticky = s.sticky ∧ s'.log = s.log
  | .error e => e.code ≠ .ok ∧ (e.event ≠ none → logs)

section Bodies

variable {s : State} {logs : Prop} {r : CmdResult}

theorem CmdResult.keepsRecord_ok {s' : State} {x : Result} (hs : s'.sticky = s.sticky) (hl : s'.log = s.log) :
    CmdResult.KeepsRecord s logs (.ok (s', x)) :=
  ⟨hs, hl⟩

theorem CmdResult.keepsRecord_error {e : Raised} (hc : e.code ≠ .ok) (hl : logs) :
    CmdResult.KeepsRecord s logs (.error e) :=
  ⟨hc, fun _ => hl⟩

theorem CmdResult.keepsRecord_refuse {code : RespCode} (h : code ≠ .ok) : (refuse code).KeepsRecord s logs :=
  ⟨h, fun hn => absurd rfl hn⟩

theorem CmdResult.keepsRecord_ite {p : Prop} [Decidable p] {r' : CmdResult} (h : r.KeepsRecord s logs)
    (h' : r'.KeepsRecord s logs) : (if p then r else r').KeepsRecord s logs := by
  split
  · exact h
  · exact h'

theorem CmdResult.KeepsRecord.permit (h : r.KeepsRecord s logs) (c i : Bool) :
    (s.permit c i r).KeepsRecord s logs := by
  rcases s.permit_cases c i r with ⟨-, -, e⟩ | ⟨-, -, -, e⟩ | ⟨-, -, e⟩
  · rw [e]
    exact keepsRecord_refuse (by decide)
  · rw [e]
    exact keepsRecord_refuse (by decide)
  · rw [e]
    exact h

theorem CmdResult.keepsRecord_withFlag (b : Byte) {f : Bool → CmdResult} (h : ∀ k, (f k).KeepsRecord s logs) :
    (withFlag b f).KeepsRecord s logs := by
  rcases withFlag_cases b f with ⟨-, e⟩ | ⟨-, e⟩ | ⟨-, -, e⟩
  · rw [e]
    exact h false
  · rw [e]
    exact h true
  · rw [e]
    exact keepsRecord_refuse (by decide)

theorem CmdResult.keepsRecord_withRing (ring : Byte) {f : Nat → CmdResult} (h : ∀ k, (f k).KeepsRecord s logs) :
    (s.withRing ring f).KeepsRecord s logs :=
  keepsRecord_ite (keepsRecord_refuse (by decide)) (h _)

end Bodies

/-! ### Every command ends in such a body -/

open CmdResult in
/-- A command ends in a body that keeps the record, and only ADVANCE refuses with a LOG event (R251, R13, R47). -/
theorem exec_eq_finish_keepsRecord (i : Instr) (s : State) :
    ∃ r, exec i s = s.finish r ∧
      CmdResult.KeepsRecord s (∃ target force, i = .advance target force) r := by
  have range : ∀ {logs : Prop}, (refuse .range).KeepsRecord s logs := keepsRecord_refuse (by decide)
  have badState : ∀ {logs : Prop}, (refuse .badState).KeepsRecord s logs := keepsRecord_refuse (by decide)
  cases i <;> refine ⟨_, rfl, KeepsRecord.permit ?_ _ _⟩
  case nop | clear | decay | setpal | rdstat => exact keepsRecord_ok rfl rfl
  case init => exact keepsRecord_ite badState (keepsRecord_ok rfl rfl)
  case fill | rdpkt => exact keepsRecord_ite range (keepsRecord_ok rfl rfl)
  case tick => exact keepsRecord_ite range (keepsRecord_ok (s.tick_sticky _) (s.tick_log _))
  case arc | setpulse => exact keepsRecord_withFlag _ fun _ => keepsRecord_ok rfl rfl
  case a2l => exact keepsRecord_withRing _ fun _ => keepsRecord_ok rfl rfl
  case rdpix | wrpix => exact keepsRecord_withRing _ fun _ => keepsRecord_ite range (keepsRecord_ok rfl rfl)
  case encode =>
    exact keepsRecord_withRing _ fun _ => keepsRecord_ite range (keepsRecord_ite range (keepsRecord_ok rfl rfl))
  case cfgwr =>
    split
    · exact range
    · exact keepsRecord_ite badState (keepsRecord_ite range (keepsRecord_ok rfl rfl))
  case cfgrd =>
    split
    · exact range
    · exact keepsRecord_ok rfl rfl
  case advance =>
    refine keepsRecord_withFlag _ fun _ => ?_
    split
    · exact keepsRecord_error RespCode.noConfusion ⟨_, _, rfl⟩
    · exact keepsRecord_ite (keepsRecord_error RespCode.noConfusion ⟨_, _, rfl⟩) (keepsRecord_ok rfl rfl)

/-- Settles O13: `State.finish` answers the body with `OK`, or raises its refusal and keeps the rest of the state. -/
theorem refusalChangesOnlyItsRecord : Obligations.RefusalChangesOnlyItsRecord := by
  intro i s t ht
  obtain ⟨r, hr, keeps⟩ := exec_eq_finish_keepsRecord i s
  rcases State.finish_eq_next.mp (hr.symm.trans ht) with ⟨s', x, rfl, rfl⟩ | ⟨e, rfl, rfl⟩
  · exact .inl ⟨s', x, rfl, keeps⟩
  · obtain ⟨code_ne, logs⟩ := keeps
    exact .inr ⟨e.code, e.event, code_ne, logs, rfl⟩

end Sys2Proof.Machine
end

section
/-! PROOFS. What a command can do, said once: the state that each command leaves when it is carried out, and that
every other command is refused (R13, R251, R258). -/

namespace Sys2Proof.Machine

/-- `s.CarriedOut i u`: on operands that pass its checks, command `i` takes `s` to `u`, before its answer is sent. One
constructor per command, with the checks that are its own; those of R258 stand in `exec_cases`. -/
inductive State.CarriedOut (s : State) : Instr → State → Prop
  | nop : s.CarriedOut .nop s
  | clear : s.CarriedOut .clear s.drawClear
  | arc {a b : Q16} {flag : Byte} {color : Color} {k : Bool} (hk : isFlag flag k) :
    s.CarriedOut (.arc a b flag color) (s.drawArc (numOf a) (numOf b) k color)
  | fill {ratio : Q16} {color : Color} (h0 : 0 ≤ numOf ratio) (h1 : numOf ratio ≤ 1) :
    s.CarriedOut (.fill ratio color) (s.drawFill (numOf ratio) color)
  | decay {m a : Q16} : s.CarriedOut (.decay m a) (s.drawDecay (numOf m) (numOf a))
  | a2l {ring : Byte} {angle : Q16} (hr : ring.toNat < s.nringsL) : s.CarriedOut (.a2l ring angle) s
  | rdpix {ring : Byte} {idx : BitVec 16} (hr : ring.toNat < s.nringsL) (hx : idx.toNat < s.ringSize ring.toNat) :
    s.CarriedOut (.rdpix ring idx) s
  | wrpix {ring : Byte} {idx : BitVec 16} {color : Color} (hr : ring.toNat < s.nringsL)
    (hx : idx.toNat < s.ringSize ring.toNat) :
    s.CarriedOut (.wrpix ring idx color)
      (s.setRing ring.toNat (Memory.write Color.black (s.ring ring.toNat) idx.toNat color))
  | tick {dt : Q16} (h0 : 0 ≤ numOf dt) : s.CarriedOut (.tick dt) (s.tick (numOf dt))
  | advance {target force : Byte} {t : Stage} {k : Bool} (ht : target.toNat = t.num) (hk : isFlag force k)
    (hg : s.guardRejects t k = false) : s.CarriedOut (.advance target force) (s.setPending t)
  | setpulse {flag : Byte} {k : Bool} (hk : isFlag flag k) : s.CarriedOut (.setpulse flag) { s with pulsing := k }
  | setpal {p q f : Color} : s.CarriedOut (.setpal p q f) { s with pal := ⟨p, q, f⟩ }
  | rdstat : s.CarriedOut .rdstat s
  | encode {ring : Byte} {start count : BitVec 16} {pad uni net : Byte} (hr : ring.toNat < s.nringsL)
    (hs : start.toNat + count.toInt.natAbs ≤ s.ringSize ring.toNat)
    (hp : pad.toNat + count.toInt.natAbs ≤ packetSlots) :
    s.CarriedOut (.encode ring start count pad uni net)
      { s with pkt := Memory.tabulate 0#8 packetLength (segmentByte s.build (s.ring ring.toNat) start.toNat
        count.toInt.natAbs (decide (0 < count.toInt)) pad.toNat uni net) }
  | rdpkt {off : BitVec 16} (ho : off.toNat < packetLength) : s.CarriedOut (.rdpkt off) s
  | cfgwr {reg : Byte} {value : BitVec 32} {r : CfgReg} (hr : cfgRegOf reg = some r)
    (hl : isLayoutReg r = true → s.inited = false) (hv : legalValue s.build.nmax value r = true) :
    s.CarriedOut (.cfgwr reg value) { s with cfg := writeReg s.cfg value r }
  | cfgrd {reg : Byte} {r : CfgReg} (hr : cfgRegOf reg = some r) : s.CarriedOut (.cfgrd reg) s
  | init (hi : s.inited = false) : s.CarriedOut .init s.initialise

/-! ### Bodies by the state they leave -/

/-- A body is refused or leaves a state with the property. -/
def CmdResult.Leaves (p : State → Prop) : CmdResult → Prop
  | .ok (u, _) => p u
  | .error _ => True

section Bodies

variable {s : State} {p : State → Prop} {r : CmdResult}

theorem CmdResult.leaves_ok {u : State} {x : Result} (h : p u) : CmdResult.Leaves p (.ok (u, x)) := h

theorem CmdResult.leaves_error (e : Raised) : CmdResult.Leaves p (.error e) := trivial

theorem CmdResult.leaves_refuse (code : RespCode) : (refuse code).Leaves p := trivial

/-- A check that refuses: the rest of the body runs only where it passes. -/
theorem CmdResult.leaves_unless {c : Prop} [Decidable c] (e : Raised) (h : ¬ c → r.Leaves p) :
    CmdResult.Leaves p (if c then .error e else r) := by
  split
  · exact leaves_error e
  · exact h ‹_›

/-- A body that runs behind the common checks runs on a port and in a state that admit it (R258). -/
theorem CmdResult.Leaves.permit (h : r.Leaves p) (c b : Bool) :
    (s.permit c b r).Leaves
      (fun u => (s.port = .C → c = true) ∧ (s.inited = false → b = true) ∧ p u) := by
  rcases s.permit_cases c b r with ⟨-, -, e⟩ | ⟨-, -, -, e⟩ | ⟨hp, hi, e⟩ <;> rw [e]
  · exact leaves_refuse _
  · exact leaves_refuse _
  · rcases r with refused | ⟨u, x⟩
    · exact leaves_error refused
    · exact ⟨hp, hi, h⟩

theorem CmdResult.leaves_withFlag {b : Byte} {f : Bool → CmdResult} (h : ∀ k, isFlag b k → (f k).Leaves p) :
    (withFlag b f).Leaves p := by
  rcases withFlag_cases b f with ⟨hb, e⟩ | ⟨hb, e⟩ | ⟨-, -, e⟩ <;> rw [e]
  · exact h false (.inl ⟨hb, rfl⟩)
  · exact h true (.inr ⟨hb, rfl⟩)
  · exact leaves_refuse _

theorem CmdResult.leaves_withRing {ring : Byte} {f : Nat → CmdResult}
    (h : ring.toNat < s.nringsL → (f ring.toNat).Leaves p) : (s.withRing ring f).Leaves p :=
  leaves_unless _ fun hr => h (not_le.mp hr)

end Bodies

/-! ### Every command is carried out or refused -/

open CmdResult in
/-- A command ends in a body that is refused, or that runs where R258 admits it and leaves what `CarriedOut` says. -/
theorem exec_eq_finish_leaves (i : Instr) (s : State) :
    ∃ r, exec i s = s.finish r ∧ r.Leaves (fun u =>
      (s.port = .C → acceptedOnPortC i = true) ∧ (s.inited = false → acceptedBeforeInit i = true) ∧
        s.CarriedOut i u) := by
  cases i <;> refine ⟨_, rfl, Leaves.permit ?_ _ _⟩
  case nop => exact leaves_ok .nop
  case clear => exact leaves_ok .clear
  case decay => exact leaves_ok .decay
  case setpal => exact leaves_ok .setpal
  case rdstat => exact leaves_ok .rdstat
  case arc => exact leaves_withFlag fun _ hk => leaves_ok (.arc hk)
  case setpulse => exact leaves_withFlag fun _ hk => leaves_ok (.setpulse hk)
  case fill =>
    refine leaves_unless _ fun h => ?_
    rw [not_or, not_lt, not_lt] at h
    exact leaves_ok (.fill h.1 h.2)
  case tick => exact leaves_unless _ fun h => leaves_ok (.tick (not_lt.mp h))
  case rdpkt => exact leaves_unless _ fun h => leaves_ok (.rdpkt (not_le.mp h))
  case init => exact leaves_unless _ fun h => leaves_ok (.init (Bool.eq_false_iff.mpr h))
  case a2l => exact leaves_withRing fun hr => leaves_ok (.a2l hr)
  case rdpix => exact leaves_withRing fun hr => leaves_unless _ fun hx => leaves_ok (.rdpix hr (not_le.mp hx))
  case wrpix => exact leaves_withRing fun hr => leaves_unless _ fun hx => leaves_ok (.wrpix hr (not_le.mp hx))
  case encode =>
    exact leaves_withRing fun hr => leaves_unless _ fun hs => leaves_unless _ fun hp =>
      leaves_ok (.encode hr (not_lt.mp hs) (not_lt.mp hp))
  case advance target _ =>
    refine leaves_withFlag fun k hk => ?_
    rcases Stage.ofNum_cases target.toNat with ⟨t, ht, e⟩ | ⟨-, e⟩ <;> rw [e]
    · exact leaves_unless _ fun hg => leaves_ok (.advance ht hk (Bool.eq_false_iff.mpr hg))
    · exact leaves_error _
  case cfgwr =>
    split
    · exact leaves_refuse _
    · refine leaves_unless _ fun hl => leaves_unless _ fun hv => leaves_ok (.cfgwr ‹_› (fun h => ?_) ?_)
      · exact Bool.eq_false_iff.mpr fun hi => hl ⟨h, hi⟩
      · exact Bool.eq_true_of_not_eq_false hv
  case cfgrd =>
    split
    · exact leaves_refuse _
    · exact leaves_ok (.cfgrd ‹_›)

/-- A command that R258 admits is carried out and answered, or it is refused (R13). -/
theorem exec_cases {i : Instr} {s t : State} (h : exec i s = .next t) :
    (∃ u x, (s.port = .C → acceptedOnPortC i = true) ∧ (s.inited = false → acceptedBeforeInit i = true) ∧
      s.CarriedOut i u ∧ t = u.respond .ok x) ∨ ∃ e, t = s.raise e := by
  obtain ⟨r, hr, leaves⟩ := exec_eq_finish_leaves i s
  rcases State.finish_eq_next.mp (hr.symm.trans h) with ⟨u, x, rfl, rfl⟩ | ⟨e, -, rfl⟩
  · obtain ⟨port, state, carried⟩ := leaves
    exact .inl ⟨u, x, port, state, carried, rfl⟩
  · exact .inr ⟨e, rfl⟩

/-! ### Every step -/

/-- A step is the reset event, or idle while no frame waits, or takes one frame, whose command runs or which is refused
as malformed (R70, R71, R83, R280). -/
theorem step_cases (s : State) :
    (s.resetIn = true ∧ step s = .next s.takeReset) ∨
    (s.resetIn = false ∧ s.inF = [] ∧ s.inC = [] ∧ step s = .next s) ∨
    ∃ p f, s.resetIn = false ∧ s.fetch = some (f, s.takeFrame p) ∧
      ((∃ i, decode s.build.cw f = .ok i ∧ step s = exec i (s.takeFrame p)) ∨
        ((∃ e, decode s.build.cw f = .error e) ∧ step s = .next (s.takeFrame p).refuseMalformed)) := by
  have taken : ∀ p f, s.resetIn = false → s.fetch = some (f, s.takeFrame p) →
      (∃ i, decode s.build.cw f = .ok i ∧ step s = exec i (s.takeFrame p)) ∨
        ((∃ e, decode s.build.cw f = .error e) ∧ step s = .next (s.takeFrame p).refuseMalformed) := by
    intro p f hr hf
    cases hd : decode s.build.cw f with
    | ok i => exact .inl ⟨i, rfl, by simp [step, hr, hf, hd]⟩
    | error e => exact .inr ⟨⟨e, rfl⟩, by simp [step, hr, hf, hd]⟩
  cases hr : s.resetIn
  · rcases s.fetch_cases with ⟨hF, hC, hf⟩ | ⟨f, -, -, hf⟩ | ⟨f, -, -, hf⟩
    · exact .inr (.inl ⟨rfl, hF, hC, by simp [step, hr, hf]⟩)
    · exact .inr (.inr ⟨.F, f, rfl, hf, taken .F f hr hf⟩)
    · exact .inr (.inr ⟨.C, f, rfl, hf, taken .C f hr hf⟩)
  · exact .inl ⟨rfl, by simp [step, hr]⟩

end Sys2Proof.Machine
end

section
/-! PROOFS. The legal states are kept by every step (R22, R23, R41, R60, R61, R172). -/

namespace Sys2Proof.Machine

/-! ### Commands that a frame can carry -/

/-- Operands read from a frame are those of a well-formed command (R23, R84). -/
theorem Opcode.operands_wf (cw : ChannelWidth) (f : Frame) (o : Opcode) : (o.operands cw f).wf cw = true := by
  cases o
  case arc | fill | wrpix => exact decide_eq_true (colAt_fits cw f _)
  case setpal => exact (setpalOf_wf cw ⟨_, _, _⟩).mpr ⟨colAt_fits cw f _, colAt_fits cw f _, colAt_fits cw f _⟩
  all_goals rfl

/-- A frame decodes to well-formed commands only (R84). -/
theorem wf_of_decode {cw : ChannelWidth} {f : Frame} {i : Instr} (h : decode cw f = .ok i) : i.wf cw = true := by
  unfold decode at h
  split at h
  · cases h
  · split at h
    · cases h
    · split at h
      · cases h
        exact Opcode.operands_wf cw _ _
      · cases h

/-! ### Configuration registers -/

/-- Only the layout registers hold the layout (R41). -/
theorem writeReg_layout {r : CfgReg} (h : isLayoutReg r = false) (c : Cfg) (v : BitVec 32) :
    (writeReg c v r).nrings = c.nrings ∧ (writeReg c v r).n0 = c.n0 ∧ (writeReg c v r).n1 = c.n1 := by
  cases r
  case nrings | n0 | n1 => cases h
  all_goals exact ⟨rfl, rfl, rfl⟩

/-- A value that may be written to a register keeps the layout registers legal (R41). -/
theorem writeReg_legal {nmax : Nat} {c : Cfg} (hc : c.legal nmax) {v : BitVec 32} {r : CfgReg}
    (hv : legalValue nmax v r = true) : (writeReg c v r).legal nmax := by
  obtain ⟨hk, h0, h1⟩ := hc
  cases r
  case nrings => exact ⟨of_decide_eq_true hv, h0, h1⟩
  case n0 => exact ⟨hk, of_decide_eq_true hv, h1⟩
  case n1 => exact ⟨hk, h0, of_decide_eq_true hv⟩
  all_goals exact ⟨hk, h0, h1⟩

/-! ### Legal states under updates of one part -/

variable {s : State}

/-- The queues, the record and the port served are no part of what makes a state legal. -/
theorem State.Legal.withRecord (h : s.Legal) (sticky : Sticky) (port : Port) (inF inC : List Frame)
    (outF outC : List Response) (log : List LogEvent) (resetIn : Bool) (turn : Nat) :
    { s with
      sticky := sticky, port := port, inF := inF, inC := inC, outF := outF, outC := outC, log := log
      resetIn := resetIn, turn := turn }.Legal :=
  { h with }

theorem State.Legal.respond (h : s.Legal) (code : RespCode) (x : Result) : (s.respond code x).Legal :=
  h.withRecord ..

theorem State.Legal.raise (h : s.Legal) (e : Raised) : (s.raise e).Legal :=
  h.withRecord ..

theorem State.Legal.takeFrame (h : s.Legal) (p : Port) : (s.takeFrame p).Legal :=
  h.withRecord ..

theorem State.Legal.withPal (h : s.Legal) {p : Palette} (hp : p.fits s.build.cw) : { s with pal := p }.Legal :=
  { h with palFits := hp }

theorem State.Legal.withPkt (h : s.Legal) {m : PacketMemory} (hw : Memory.wf 0#8 m)
    (hb : Memory.below packetLength m) : { s with pkt := m }.Legal :=
  { h with pktWf := hw, pktBelow := hb }

/-- A legal write to a register, of the layout only before INIT, keeps the layout in force the configured one. -/
theorem State.Legal.writeReg (h : s.Legal) {v : BitVec 32} {r : CfgReg} (hl : isLayoutReg r = true → s.inited = false)
    (hv : legalValue s.build.nmax v r = true) : { s with cfg := writeReg s.cfg v r }.Legal :=
  { h with
    cfg := writeReg_legal h.cfg hv
    layout := fun hi => by
      have hr : isLayoutReg r = false := Bool.eq_false_iff.mpr fun hr => by simp_all
      obtain ⟨hk, h0, h1⟩ := writeReg_layout hr s.cfg v
      rw [hk, h0, h1]
      exact h.layout hi }

/-- The ring of a number below `NRINGS_L` is legal at its own size. -/
theorem State.Legal.ringLegal (h : s.Legal) {k : Nat} (hk : k < s.nringsL) :
    RingLegal s.build.cw (s.ringSize k) (s.ring k) := by
  cases k with
  | zero => exact h.ringLegal0 hk
  | succ k => exact h.ringLegal1 (by omega)

theorem State.Legal.setRing (h : s.Legal) {k : Nat} {m : Memory Color}
    (hm : RingLegal s.build.cw (s.ringSize k) m) : (s.setRing k m).Legal := by
  cases k with
  | zero => exact { h with ring0Wf := hm.wf, ring0Below := fun _ => hm.below, ring0Fits := hm.fits }
  | succ k => exact { h with ring1Wf := hm.wf, ring1Below := fun _ => hm.below, ring1Fits := hm.fits }

/-- The state after reset is legal for every legal build (R280). -/
theorem State.resetOf_legal {b : Build} (h : b.legal) : (State.resetOf b).Legal where
  build := h
  cfg := h.2.1
  layout := fun hi => by cases hi
  beforeInit := fun _ => ⟨rfl, rfl, rfl⟩
  ring0Wf := Memory.wf_nil
  ring1Wf := Memory.wf_nil
  pktWf := Memory.wf_nil
  ring0Below := fun _ => List.forall_mem_nil _
  ring1Below := fun _ => List.forall_mem_nil _
  pktBelow := List.forall_mem_nil _
  ring0Fits := List.forall_mem_nil _
  ring1Fits := List.forall_mem_nil _
  palFits := h.2.2
  cur := trivial
  pend := trivial

theorem State.Legal.takeReset (h : s.Legal) : s.takeReset.Legal :=
  (State.resetOf_legal h.build).withRecord ..

/-! ### Legal states under commands and steps -/

/-- A well-formed command that is carried out where R253 admits it leaves a legal state. -/
theorem State.CarriedOut.legal {i : Instr} {u : State} (h : s.CarriedOut i u) (hs : s.Legal)
    (hw : i.wf s.build.cw = true) (hb : s.inited = false → acceptedBeforeInit i = true) : u.Legal := by
  have ready : acceptedBeforeInit i = false → s.inited = true := fun hn => by simp_all
  cases h
  case nop | a2l | rdpix | rdstat | rdpkt | cfgrd => exact hs
  case clear => exact hs.drawClear
  case arc => exact hs.drawArc (ready rfl) _ _ _ (of_decide_eq_true hw)
  case fill => exact hs.drawFill _ _
  case decay => exact hs.drawDecay _ _
  case wrpix hr hx => exact hs.setRing ((hs.ringLegal hr).write hx (of_decide_eq_true hw))
  case tick => exact hs.tick (ready rfl) _
  case advance => exact hs.withStage (ready rfl) hs.cur (mkStage_legal _ hs.cur _) true s.pulsing s.pulseH
  case setpulse k _ => exact hs.withStage (ready rfl) hs.cur hs.pend s.pendValid k s.pulseH
  case setpal => exact hs.withPal ((setpalOf_wf _ ⟨_, _, _⟩).mp hw)
  case encode => exact hs.withPkt (Memory.wf_tabulate _) (Memory.below_tabulate _)
  case cfgwr hl hv => exact hs.writeReg hl hv
  case init => exact hs.initialise

theorem State.Legal.exec (h : s.Legal) {i : Instr} (hw : i.wf s.build.cw = true) {t : State}
    (ht : exec i s = .next t) : t.Legal := by
  rcases exec_cases ht with ⟨u, x, -, hb, carried, rfl⟩ | ⟨e, rfl⟩
  · exact (carried.legal h hw hb).respond .ok x
  · exact h.raise e

/-- Settles O11: a step is the reset event, idle, or one frame taken whose command is carried out or refused, and each
of these keeps the legal states. -/
theorem stepKeepsLegalStates : Obligations.StepKeepsLegalStates := by
  intro s t hs ht
  rcases step_cases s with ⟨-, e⟩ | ⟨-, -, -, e⟩ | ⟨p, f, -, -, ⟨i, hd, e⟩ | ⟨-, e⟩⟩ <;> rw [e] at ht
  · cases ht
    exact hs.takeReset
  · cases ht
    exact hs
  · exact (hs.takeFrame p).exec (wf_of_decode hd) ht
  · cases ht
    exact (hs.takeFrame p).raise _

end Sys2Proof.Machine
end

section
/-! PROOFS. Which commands write which piece of state (R21 to R48). -/

namespace Sys2Proof.Machine

section CarriedOut

variable {s u : State} {i : Instr}

/-- No command that is carried out touches the record, the queues, the port served or the build (R13, R291). -/
theorem State.CarriedOut.record_eq (h : s.CarriedOut i u) :
    u.sticky = s.sticky ∧ u.log = s.log ∧ u.build = s.build ∧ u.port = s.port ∧ u.inF = s.inF ∧ u.inC = s.inC ∧
      u.resetIn = s.resetIn ∧ u.turn = s.turn := by
  cases h
  case tick => simp
  all_goals exact ⟨rfl, rfl, rfl, rfl, rfl, rfl, rfl, rfl⟩

/-- Only INIT, and INIT once, latches the layout (R21, R22). -/
theorem State.CarriedOut.latch (h : s.CarriedOut i u) :
    (i = .init ∧ s.inited = false ∧ u.inited = true) ∨
      (u.inited = s.inited ∧ u.nringsL = s.nringsL ∧ u.n0L = s.n0L ∧ u.n1L = s.n1L) := by
  cases h
  case init hi => exact .inl ⟨rfl, hi, rfl⟩
  case tick => exact .inr (by simp)
  all_goals exact .inr ⟨rfl, rfl, rfl, rfl⟩

/-- The writers of each piece of state, over the commands that are carried out (R24 to R48). -/
theorem State.CarriedOut.writers (h : s.CarriedOut i u) :
    (u.ring0 ≠ s.ring0 ∨ u.ring1 ≠ s.ring1 → i.opcode ∈ [.clear, .arc, .fill, .decay, .wrpix, .tick, .init]) ∧
    (u.pkt ≠ s.pkt → i.opcode ∈ [.encode, .init]) ∧
    (u.pal ≠ s.pal → i.opcode = .setpal) ∧
    (u.cfg ≠ s.cfg → i.opcode = .cfgwr) ∧
    (u.pulsing ≠ s.pulsing → i.opcode ∈ [.setpulse, .tick, .init]) ∧
    (u.pulseH ≠ s.pulseH → i.opcode ∈ [.tick, .init]) ∧
    (u.cur ≠ s.cur → i.opcode ∈ [.tick, .init]) ∧
    (u.pend ≠ s.pend → i.opcode ∈ [.advance, .tick]) ∧
    (u.pendValid ≠ s.pendValid → i.opcode ∈ [.advance, .tick, .init]) := by
  cases h
  case nop | a2l | rdpix | rdstat | rdpkt | cfgrd => simp
  all_goals simp [Instr.opcode]

end CarriedOut

/-! ### Latched state -/

/-- A refusal sets sticky bits and clears none (R46). -/
theorem Sticky.set_keeps (st : Sticky) (code : RespCode) :
    (st.errReject = true → (st.set code).errReject = true) ∧ (st.errRange = true → (st.set code).errRange = true) ∧
    (st.errOpc = true → (st.set code).errOpc = true) ∧ (st.errPort = true → (st.set code).errPort = true) ∧
    (st.errState = true → (st.set code).errState = true) := by
  cases code <;> simp [Sticky.set]

/-- Settles O54: a command that is carried out keeps the sticky bits and latches at most once, by INIT; a refused one
sets a sticky bit and latches nothing. -/
theorem latchedStateOnlyReleasedByReset : Obligations.LatchedStateOnlyReleasedByReset := by
  intro i s t ht
  rcases exec_cases ht with ⟨u, x, -, -, carried, rfl⟩ | ⟨e, rfl⟩
  · have sticky : (u.respond .ok x).sticky = s.sticky := carried.record_eq.1
    rw [sticky]
    refine ⟨id, id, id, id, id, ?_⟩
    rcases carried.latch with ⟨rfl, before, after⟩ | ⟨inited, layout⟩
    · simp [before, after]
    · exact ⟨inited.trans, fun _ => inited, fun _ => layout⟩
  · obtain ⟨reject, range, opc, port, state⟩ := s.sticky.set_keeps e.code
    exact ⟨reject, range, opc, port, state, id, fun _ => rfl, fun _ => ⟨rfl, rfl, rfl⟩⟩

/-! ### Writers -/

/-- Only ADVANCE emits a LOG event (R47). -/
theorem opcode_of_log_ne {i : Instr} {s t : State} (ht : exec i s = .next t) (hl : t.log ≠ s.log) :
    i.opcode = .advance := by
  rcases refusalChangesOnlyItsRecord i s t ht with ⟨u, x, rfl, -, log⟩ | ⟨code, event, -, advance, rfl⟩
  · exact absurd log hl
  · have logged : event ≠ none := by
      rintro rfl
      exact hl (List.append_nil _)
    obtain ⟨target, force, rfl⟩ := advance logged
    rfl

/-- Settles O55: the writers are those of the commands that are carried out; a refusal writes its record only. -/
theorem stateIsWrittenOnlyByItsWriters : Obligations.StateIsWrittenOnlyByItsWriters := by
  intro i s t ht
  have log := opcode_of_log_ne ht
  rcases exec_cases ht with ⟨u, x, -, -, carried, rfl⟩ | ⟨e, rfl⟩
  · obtain ⟨rings, pkt, pal, cfg, pulsing, pulseH, cur, pend, pendValid⟩ := carried.writers
    obtain ⟨-, -, kept⟩ := carried.record_eq
    exact ⟨rings, pkt, pal, cfg, pulsing, pulseH, cur, pend, pendValid, log, kept⟩
  · refine ⟨?_, ?_, ?_, ?_, ?_, ?_, ?_, ?_, ?_, log, rfl, rfl, rfl, rfl, rfl, rfl⟩
    all_goals simp

end Sys2Proof.Machine
end

section
/-! PROOFS. ARC pixel by pixel (R120 to R123). -/

namespace Sys2Proof.Machine

/-! ### The quantities of the statement -/

/-- The effective colour, with the pulse value written out (R29, R118). -/
theorem State.effcol_eq (s : State) (c : Color) :
    s.effcol c = if s.pulsing = true then scale s.build.cw c ((sinpi s.pulseH + 1) / 2) else c := rfl

/-- The index of an angle already normalised, written out (R114). -/
theorem led_norm360 (n : Nat) (a : ℚ) : led n (norm360 a) = (n : ℚ) / 360 * norm360 a := by
  rw [led, norm360_norm360]

theorem wholeIndex_norm360 (n : Nat) (a : ℚ) :
    (wholeIndex n (norm360 a) : ℤ) = ⌊(n : ℚ) / 360 * norm360 a⌋ := by
  rw [wholeIndex, led_norm360, Int.toNat_of_nonneg]
  exact Int.floor_nonneg.mpr (mul_nonneg (by positivity) (norm360_nonneg a))

theorem subPixel_norm360 (n : Nat) (a : ℚ) :
    subPixel n (norm360 a) = (n : ℚ) / 360 * norm360 a - (⌊(n : ℚ) / 360 * norm360 a⌋ : ℤ) := by
  rw [subPixel, led_norm360, frac]

/-- The boundary pixel is the one after the target's whole index, or the one before it, around the ring (R123). -/
theorem eq_boundary_iff {n : Nat} (hn : 0 < n) (iT i : Nat) (k : Bool) :
    i = boundary n iT k ↔ (i : ℤ) = if k = true then ((iT : ℤ) + 1) % n else ((iT : ℤ) - 1) % n := by
  have cast : (boundary n iT k : ℤ) = ((iT : ℤ) + if k = true then 1 else -1) % n :=
    Int.toNat_of_nonneg (Int.emod_nonneg _ (by omega))
  rw [← Nat.cast_inj (R := ℤ), cast]
  cases k <;> rfl

/-- The pixels of an arc's span, among those of the ring (R121, R122). -/
theorem mem_wholes_of_lt {n iF iT i : Nat} (hi : i < n) {aF aT : ℚ} {k : Bool} :
    i ∈ wholes n iF iT aF aT k ↔
      if k = true then if aF ≤ aT then (iF : ℤ) ≤ i ∧ (i : ℤ) ≤ iT else (iF : ℤ) ≤ i ∨ (i : ℤ) ≤ iT
      else if aT ≤ aF then (iT : ℤ) ≤ i ∧ (i : ℤ) ≤ iF else (i : ℤ) ≤ iF ∨ (iT : ℤ) ≤ i := by
  have last : i ≤ n - 1 := by omega
  simp only [mem_wholes, last, and_true, Nat.cast_le]

/-! ### The command -/

/-- ARC with a sound flag is accepted and leaves what its body draws (R120). -/
theorem exec_arc {s : State} (hp : s.port = .F) (hi : s.inited = true) {flag : Byte} {k : Bool} (hk : isFlag flag k)
    (a b : Q16) (color : Color) :
    exec (.arc a b flag color) s = .next ((s.drawArc (numOf a) (numOf b) k color).respond .ok .none) := by
  rcases hk with ⟨rfl, rfl⟩ | ⟨rfl, rfl⟩ <;> exact congrArg s.finish (State.permit_portF hp hi false false _)

/-- A pixel of a ring that exists after an arc (R120 to R123). -/
theorem State.pixel_drawArc (s : State) (a b : ℚ) (k : Bool) (color : Color) {j : Nat} (hj : j < s.nringsL)
    (i : Nat) :
    let n := s.ringSize j
    (s.drawArc a b k color).pixel j i =
      if i = boundary n (wholeIndex n (norm360 b)) k then
        scale s.build.cw (s.effcol color) (subPixel n (norm360 b) / 2)
      else if i ∈ wholes n (wholeIndex n (norm360 a)) (wholeIndex n (norm360 b)) (norm360 a) (norm360 b) k then
        s.effcol color
      else s.pixel j i := by
  rw [State.drawArc, State.pixel_onRings _ _ _ hj, read_paintArc]
  rfl

/-- Settles O19: ARC leaves the rings of its body, whose pixels `pixel_drawArc` gives; what remains is to write out
its indices as the rule does. -/
theorem arcPaintsSpanThenBoundary : Obligations.ArcPaintsSpanThenBoundary := by
  intro s a b flag k color hp hi hk
  refine ⟨_, _, s.drawArc (numOf a) (numOf b) k color, rfl, exec_arc hp hi hk a b color, ?_, ?_, ?_⟩
  · intro h
    exact if_neg (by omega)
  · intro h
    exact if_neg (by omega)
  · intro j i hj hx
    have hn : 0 < s.ringSize j := by omega
    simp only [s.pixel_drawArc _ _ k color hj i, eq_boundary_iff hn, mem_wholes_of_lt hx, wholeIndex_norm360,
      subPixel_norm360, State.effcol_eq, Int.cast_natCast]

end Sys2Proof.Machine
end

section
/-! PROOFS. What every TICK does, whatever the stage (R39, R72, R156 to R159). -/

namespace Sys2Proof.Machine

/-! ### The elapsed time -/

@[simp] theorem StageData.elapsed_age (d : StageData) (dt : ℚ) : (d.age dt).elapsed = d.elapsed + dt := by
  cases d <;> rfl

/-- An update rule leaves the elapsed time of its stage (R158, R159). -/
@[simp] theorem State.update_cur_elapsed (s : State) (dt : ℚ) : (s.update dt).cur.elapsed = s.cur.elapsed := by
  unfold State.update
  split
  · rfl
  · next h => simp [State.updateStarting, h, StageData.elapsed]
  · next h => simp [State.updateIdle, h, StageData.elapsed]
  · next h =>
    unfold State.updateWindup
    dsimp only
    split <;> simp [h, StageData.elapsed, WindupData.move]
  · next h => simp [State.updateExplosion, h, StageData.elapsed]
  · rfl

/-! ### Entering Dark -/

/-- Dark draws nothing (R161). -/
theorem State.pixel_update_of_dark {s : State} (h : s.cur.tag = .dark) (dt : ℚ) (k i : Nat) :
    (s.update dt).pixel k i = s.pixel k i := by
  unfold State.update
  split
  · rfl
  all_goals
    next hd =>
      rw [hd] at h
      cases h

/-- The swap into Dark clears the canvas and the pulse (R156). -/
theorem State.swap_into_dark {s : State} (hv : s.pendValid = true) (ht : s.pend.tag = .dark) :
    s.swap.pulsing = false ∧ ∀ k i, k < s.nringsL → s.swap.pixel k i = Color.black := by
  rcases s.swap_cases with ⟨-, e⟩ | ⟨hn, -⟩
  · rw [e, ht]
    exact ⟨rfl, fun k i hk => State.pixel_drawClear (s := { s with cur := s.pend, pendValid := false }) k i hk⟩
  · simp [hn] at hv

/-- Any other swap, or none, leaves the pulse (R156). -/
theorem State.swap_pulsing_of_not_dark {s : State} (h : ¬ (s.pendValid = true ∧ s.pend.tag = .dark)) :
    s.swap.pulsing = s.pulsing := by
  rcases s.swap_cases with ⟨hv, e⟩ | ⟨-, e⟩ <;> rw [e]
  cases ht : s.pend.tag
  case dark => exact absurd ⟨hv, ht⟩ h
  all_goals rfl

/-! ### The command -/

/-- TICK is accepted for a `dt` that is not negative, and leaves what its body makes (R150). -/
theorem exec_tick {s : State} (hp : s.port = .F) (hi : s.inited = true) {dt : Q16} (h0 : 0 ≤ numOf dt) :
    exec (.tick dt) s = .next ((s.tick (numOf dt)).respond .ok .none) :=
  calc exec (.tick dt) s = s.finish (if numOf dt < 0 then refuse .range else done (s.tick (numOf dt))) :=
        congrArg s.finish (State.permit_portF hp hi false false _)
    _ = .next ((s.tick (numOf dt)).respond .ok .none) := by rw [if_neg (not_lt.mpr h0), State.finish_done]

/-- Settles O37: after the swap neither the timer nor the update rule changes the stage, and only the timer advances
the elapsed time. -/
theorem tickChangesStageOnlyBySwap : Obligations.TickChangesStageOnlyBySwap := by
  intro s t dt hp hi h0 ht
  rw [exec_tick hp hi h0] at ht
  cases ht
  refine ⟨?_, ?_, s.tick_pulseH _⟩
  · simp [State.tick, apply_ite StageData.tag]
  · simp [State.tick, apply_ite StageData.elapsed]

/-- Settles O38: the swap into Dark clears the canvas and the pulse, and Dark draws nothing after it; the pulse is
written by no other part of a TICK. -/
theorem tickEnteringDarkClears : Obligations.TickEnteringDarkClears := by
  intro s t dt hp hi h0 ht
  rw [exec_tick hp hi h0] at ht
  cases ht
  refine ⟨fun hv hd => ?_, fun h => ?_⟩
  · obtain ⟨pulse, canvas⟩ := State.swap_into_dark hv hd
    have dark : (s.swap.advanceTime (numOf dt)).cur.tag = .dark := by simp [hv, hd]
    refine ⟨(s.tick_pulsing _).trans pulse, fun k i hk _ => ?_⟩
    calc (s.tick (numOf dt)).pixel k i = s.swap.pixel k i := State.pixel_update_of_dark dark _ k i
      _ = Color.black := canvas k i (by simpa using hk)
  · exact (s.tick_pulsing _).trans (State.swap_pulsing_of_not_dark h)

end Sys2Proof.Machine
end

section
/-! PROOFS. The configuration registers through CFGWR and CFGRD (R41, R42, R85, R235, R237). -/

namespace Sys2Proof.Machine

/-! ### Register numbers -/

/-- The number of a register (R41). -/
def CfgReg.number : CfgReg → Byte
  | .nrings => 0x00#8
  | .n0 => 0x01#8
  | .n1 => 0x02#8
  | .flags => 0x03#8
  | .resetTime => 0x10#8
  | .startAccel => 0x11#8
  | .startTargetSpeed => 0x12#8
  | .advanceTime => 0x13#8
  | .windupAccel => 0x14#8
  | .windupTargetSpeed => 0x15#8
  | .fillRate => 0x16#8
  | .fadeTime => 0x17#8
  | .blinkRate => 0x18#8

@[simp] theorem cfgRegOf_number (r : CfgReg) : cfgRegOf r.number = some r := by cases r <;> rfl

/-- A number is that of a register, or reserved (R41). -/
theorem cfgRegOf_number_or_none (reg : Byte) : (∃ r : CfgReg, reg = r.number) ∨ cfgRegOf reg = none := by
  have named : ∀ reg : Byte, (cfgRegOf reg).map CfgReg.number = some reg ∨ cfgRegOf reg = none := by decide +kernel
  rcases named reg with h | h
  · obtain ⟨r, -, hr⟩ := Option.map_eq_some_iff.mp h
    exact .inl ⟨r, hr.symm⟩
  · exact .inr h

/-- The reserved numbers lie between the two blocks of registers and above them (R41). -/
theorem cfgRegOf_eq_none_iff : ∀ reg : Byte,
    cfgRegOf reg = none ↔ (3 < reg.toNat ∧ reg.toNat < 0x10) ∨ 0x18 < reg.toNat := by decide +kernel

/-- The layout registers have the numbers up to 2 (R41). -/
theorem CfgReg.number_le_two_iff (r : CfgReg) : r.number.toNat ≤ 2 ↔ isLayoutReg r = true := by cases r <;> decide

/-! ### Registers and their encodings -/

/-- The Q16.16 pattern of a `num` operand's value is the operand (R84, R85). -/
theorem q16Of_numOf (v : Q16) : q16Of (numOf v) = v := by
  have exact : numOf v * 65536 = (v.toInt : ℚ) := by
    unfold numOf
    ring
  rw [q16Of, exact, Int.floor_intCast, BitVec.ofInt_toInt]

/-- FLAGS is read as the three low bits of the word it was written with (R42, R85). -/
theorem setWidth_flags (v : BitVec 32) : (v.setWidth 3).setWidth 32 = v &&& 7#32 := by
  apply BitVec.eq_of_toNat_eq
  have := v.isLt
  simp only [BitVec.toNat_setWidth, BitVec.toNat_and, BitVec.toNat_ofNat]
  rw [show 7 % 2 ^ 32 = 2 ^ 3 - 1 by norm_num, Nat.and_two_pow_sub_one_eq_mod]
  omega

/-- A register read after it was written: the word itself, of FLAGS its three low bits (R41, R42, R85). -/
theorem readReg_writeReg (c : Cfg) (v : BitVec 32) (r : CfgReg) :
    readReg (writeReg c v r) r = if r = .flags then v &&& 7#32 else v := by
  cases r
  case nrings | n0 | n1 => exact (BitVec.ofNat_toNat 32 v).trans (BitVec.setWidth_eq v)
  case flags => exact setWidth_flags v
  all_goals exact q16Of_numOf v

/-! ### The commands on port F -/

/-- On port F a command that is accepted before INIT passes the common checks in any state (R258). -/
theorem State.permit_before_init (s : State) (hp : s.port = .F) (c : Bool) (r : CmdResult) : s.permit c true r = r :=
  State.permit_pass (fun h => by simp [hp] at h) fun _ => rfl

section PortF

variable {s : State} (hp : s.port = .F) (v : BitVec 32)

include hp

/-- CFGWR is checked by its body alone, before INIT as after (R253, R258). -/
theorem exec_cfgwr_number (r : CfgReg) :
    exec (.cfgwr r.number v) s = s.finish
      (if isLayoutReg r = true ∧ s.inited = true then refuse .badState
        else if legalValue s.build.nmax v r = false then refuse .range
        else done { s with cfg := writeReg s.cfg v r }) := by
  simp only [exec, execCfgwr, s.permit_before_init hp, cfgRegOf_number]

/-- CFGWR refuses a reserved number (R235). -/
theorem exec_cfgwr_reserved {reg : Byte} (hr : cfgRegOf reg = none) :
    exec (.cfgwr reg v) s = .next (s.raise ⟨.range, none⟩) := by
  simp only [exec, execCfgwr, s.permit_before_init hp, hr, State.finish_refuse]

/-- CFGWR refuses a layout register after INIT, whatever the value (R235). -/
theorem exec_cfgwr_layout {r : CfgReg} (hl : isLayoutReg r = true) (hi : s.inited = true) :
    exec (.cfgwr r.number v) s = .next (s.raise ⟨.badState, none⟩) := by
  rw [exec_cfgwr_number hp, if_pos ⟨hl, hi⟩, State.finish_refuse]

/-- CFGWR writes a legal value, and refuses any other, where the register may be written (R235). -/
theorem exec_cfgwr_writable {r : CfgReg} (hl : isLayoutReg r = true → s.inited = false) :
    exec (.cfgwr r.number v) s = .next
      (if legalValue s.build.nmax v r = true then { s with cfg := writeReg s.cfg v r }.respond .ok .none
       else s.raise ⟨.range, none⟩) := by
  have writable : ¬ (isLayoutReg r = true ∧ s.inited = true) := fun h => by simp [hl h.1] at h
  rw [exec_cfgwr_number hp, if_neg writable]
  cases legalValue s.build.nmax v r <;> simp

/-- CFGRD answers the register (R237). -/
theorem exec_cfgrd_number (r : CfgReg) :
    exec (.cfgrd r.number) s = .next (s.respond .ok (.u32 (readReg s.cfg r))) := by
  simp only [exec, execCfgrd, s.permit_before_init hp, cfgRegOf_number, State.finish_ok]

end PortF

/-- Settles O50: the reserved numbers and the layout registers after INIT are refused; every other register is written
by its type where the value is legal, and outside the layout every value is. -/
theorem cfgwrWritesTheRegister : Obligations.CfgwrWritesTheRegister := by
  refine ⟨fun _ => rfl, fun s reg v x hp hx => ?_⟩
  have layout : ∀ (r : CfgReg) (p : Prop) [Decidable p], legalValue s.build.nmax v r = decide p →
      reg = r.number → s.inited = false → exec (.cfgwr reg v) s = .next
        (if p then { s with cfg := writeReg s.cfg v r }.respond .ok .none else s.raise ⟨.range, none⟩) := by
    rintro r p _ hv rfl hi
    simp only [exec_cfgwr_writable hp v fun _ => hi, hv, decide_eq_true_eq]
  have other : ∀ r : CfgReg, isLayoutReg r = false → legalValue s.build.nmax v r = true → reg = r.number →
      exec (.cfgwr reg v) s = .next ({ s with cfg := writeReg s.cfg v r }.respond .ok .none) := by
    rintro r hl hv rfl
    rw [exec_cfgwr_writable hp v (by simp [hl]), if_pos hv]
  have flags : v.extractLsb' 0 3 = v.setWidth 3 := BitVec.eq_of_toNat_eq rfl
  rw [flags, hx]
  refine ⟨fun h => exec_cfgwr_reserved hp v ((cfgRegOf_eq_none_iff reg).mpr h), fun h hi => ?_,
    layout .nrings _ rfl, layout .n0 _ rfl, layout .n1 _ rfl, other .flags rfl rfl,
    other .resetTime rfl rfl, other .startAccel rfl rfl, other .startTargetSpeed rfl rfl, other .advanceTime rfl rfl,
    other .windupAccel rfl rfl, other .windupTargetSpeed rfl rfl, other .fillRate rfl rfl, other .fadeTime rfl rfl,
    other .blinkRate rfl rfl⟩
  rcases cfgRegOf_number_or_none reg with ⟨r, rfl⟩ | hn
  · exact exec_cfgwr_layout hp v (r.number_le_two_iff.mp h) hi
  · have := (cfgRegOf_eq_none_iff reg).mp hn
    omega

/-- Outside the causes of `RANGE` a CFGWR names a register and a value that may be written to it (R255). -/
theorem exists_reg_of_not_rangeCause {s : State} {reg : Byte} {v : BitVec 32} (h : ¬ rangeCause s (.cfgwr reg v)) :
    ∃ r : CfgReg, reg = r.number ∧ legalValue s.build.nmax v r = true := by
  rcases cfgRegOf_number_or_none reg with ⟨r, rfl⟩ | hn
  · refine ⟨r, rfl, ?_⟩
    simp only [rangeCause, not_or] at h
    obtain ⟨-, -, nrings, size⟩ := h
    cases r
    case nrings => exact decide_eq_true (by simp [CfgReg.number] at nrings; omega)
    case n0 | n1 => exact decide_eq_true (by simp [CfgReg.number] at size; omega)
    all_goals rfl
  · have reserved := (cfgRegOf_eq_none_iff reg).mp hn
    exact absurd (by unfold rangeCause; tauto) h

/-- Settles O52: outside its causes of refusal CFGWR writes the register, and CFGRD answers what `readReg_writeReg`
says. -/
theorem cfgrdReadsBackWhatCfgwrWrote : Obligations.CfgrdReadsBackWhatCfgwrWrote := by
  intro s t reg v hp ht _ hc hl
  obtain ⟨r, rfl, hv⟩ := exists_reg_of_not_rangeCause hc
  have writable : isLayoutReg r = true → s.inited = false := fun h =>
    Bool.eq_false_iff.mpr fun hi => hl ⟨hi, r.number_le_two_iff.mpr h⟩
  have flags : r.number = 0x03#8 ↔ r = .flags := by cases r <;> decide
  rw [exec_cfgwr_writable hp v writable, if_pos hv] at ht
  cases ht
  simp only [flags, ← readReg_writeReg s.cfg v r]
  exact exec_cfgrd_number (s := { s with cfg := writeReg s.cfg v r }.respond .ok .none) hp r

end Sys2Proof.Machine
end

section
/-! PROOFS. The status word (R46, R239), the stage constructor (R181, R182) and the palette (R26, R185). -/

namespace Sys2Proof.Machine

/-! ### Commands of both ports -/

/-- A command that both ports and every state admit passes the common checks (R258). -/
theorem State.permit_always (s : State) (r : CmdResult) : s.permit true true r = r :=
  State.permit_pass (fun _ => rfl) fun _ => rfl

/-! ### The status word -/

/-- The one-bit fields of the status word (R46). -/
theorem State.statusWord_bits (s : State) :
    s.statusWord.getLsbD 3 = s.pendValid ∧ s.statusWord.getLsbD 7 = s.pulsing ∧ s.statusWord.getLsbD 8 = s.inited ∧
    s.statusWord.getLsbD 16 = s.sticky.errReject ∧ s.statusWord.getLsbD 17 = s.sticky.errRange ∧
    s.statusWord.getLsbD 18 = s.sticky.errOpc ∧ s.statusWord.getLsbD 19 = s.sticky.errPort ∧
    s.statusWord.getLsbD 20 = s.sticky.errState := by
  unfold State.statusWord
  refine ⟨?_, ?_, ?_, ?_, ?_, ?_, ?_, ?_⟩
  all_goals
    change @BitVec.getLsbD (_ + _) (_ ++ _) _ = _
    simp only [BitVec.getLsbD_append]
    simp

/-- The fields of the status word that are wider than one bit (R46). -/
theorem State.statusWord_fields (s : State) :
    s.statusWord.extractLsb' 0 3 = s.statusStage ∧ s.statusWord.extractLsb' 4 3 = s.statusPendStage ∧
    s.statusWord.extractLsb' 9 7 = 0#7 ∧ s.statusWord.extractLsb' 21 11 = 0#11 := by
  unfold State.statusWord
  refine ⟨?_, ?_, ?_, ?_⟩
  all_goals
    change @BitVec.extractLsb' (_ + _) _ _ (_ ++ _) = _
    simp (disch := decide) only [BitVec.extractLsb'_append_eq_of_le, BitVec.extractLsb'_append_eq_of_add_le]
    simp

/-- Settles O53: RDSTAT has no check that can fail, and each field is its own part of the status word. -/
theorem rdstatAnswersTheStatusWord : Obligations.RdstatAnswersTheStatusWord := by
  intro s
  obtain ⟨pendValid, pulsing, inited, errReject, errRange, errOpc, errPort, errState⟩ := s.statusWord_bits
  obtain ⟨stage, pendStage, gap, top⟩ := s.statusWord_fields
  exact ⟨s.statusWord, congrArg s.finish (s.permit_always _), stage, pendValid, pendStage, pulsing, inited, gap,
    errReject, errRange, errOpc, errPort, errState, top⟩

/-! ### The stage constructor -/

/-- A stage without a particle carries neither position nor speed (R182). -/
theorem carry_of_no_particle {d : StageData} (h : d.tag = .dark ∨ d.tag = .explosion ∨ d.tag = .fade) :
    carry d = (0, 0) := by
  cases d
  case dark | explosion | fade => rfl
  all_goals simp [StageData.tag] at h

/-- Settles O41: the continuity fields are those of the variants that move a particle, and 0 for the others. -/
theorem stageConstructor : Obligations.StageConstructor := by
  intro c cur
  refine ⟨rfl, rfl, rfl, rfl, fun p v h => ?_⟩
  have carried : carry cur = (p, v) := by
    rcases h with ⟨e, a, g, rfl⟩ | ⟨e, a, rfl⟩ | ⟨e, p2, v2, a, g, rfl⟩ | ⟨rfl, rfl, h⟩
    · rfl
    · rfl
    · rfl
    · exact carry_of_no_particle h
  simp [mkStage, carried, windupP2Offset, secondSpeedDivisor]

/-! ### The palette -/

/-- Settles O44: SETPAL has no check that can fail. -/
theorem setpalSetsThePalette : Obligations.SetpalSetsThePalette := by
  refine ⟨fun _ _ _ _ => ?_, fun s p q f => congrArg s.finish (s.permit_always _)⟩
  rfl

end Sys2Proof.Machine
end

section
/-! PROOFS. Which frame a step takes, and what it does with it (R70, R71, R82, R83). -/

namespace Sys2Proof.Machine

variable {s s' : State} {f : Frame} {rest : List Frame}

/-! ### A frame fetched -/

/-- A frame that decodes is run as its command, in the state that took it (R70, R82). -/
theorem step_of_decode_ok {i : Instr} (hr : s.resetIn = false) (hf : s.fetch = some (f, s'))
    (hd : decode s'.build.cw f = .ok i) : step s = exec i s' := by
  simp [step, hr, hf, hd]

/-- A frame that does not decode is refused as malformed, in the state that took it (R83). -/
theorem step_of_decode_error {e : DecodeError} (hr : s.resetIn = false) (hf : s.fetch = some (f, s'))
    (hd : decode s'.build.cw f = .error e) : step s = .next s'.refuseMalformed := by
  simp [step, hr, hf, hd]

/-! ### The queues -/

/-- Port F gives its oldest frame; port C is untouched (R71). -/
theorem State.takeFrame_portF (h : s.inF = f :: rest) :
    s.takeFrame .F = { s with port := .F, turn := s.turn + 1, inF := rest } := by
  simp [State.takeFrame, h]

/-- Port C gives its oldest frame; port F is untouched (R71). -/
theorem State.takeFrame_portC (h : s.inC = f :: rest) :
    s.takeFrame .C = { s with port := .C, turn := s.turn + 1, inC := rest } := by
  simp [State.takeFrame, h]

/-- A step is idle, or serves a port that has a frame waiting: it takes the oldest one off that port's queue and runs
the command it decodes to (R70, R71, R82). -/
theorem step_serves_a_port (hr : s.resetIn = false) :
    (s.inF = [] ∧ s.inC = [] ∧ step s = .next s) ∨
    (∃ f rest, s.inF = f :: rest ∧ ∀ i, decode s.build.cw f = .ok i →
      step s = exec i { s with port := .F, turn := s.turn + 1, inF := rest }) ∨
    (∃ f rest, s.inC = f :: rest ∧ ∀ i, decode s.build.cw f = .ok i →
      step s = exec i { s with port := .C, turn := s.turn + 1, inC := rest }) := by
  rcases s.fetch_cases with ⟨hF, hC, hf⟩ | ⟨f, rest, hF, hf⟩ | ⟨f, rest, hC, hf⟩
  · exact .inl ⟨hF, hC, by simp [step, hr, hf]⟩
  · refine .inr (.inl ⟨f, rest, hF, fun i hd => ?_⟩)
    rw [← State.takeFrame_portF hF]
    exact step_of_decode_ok hr hf hd
  · refine .inr (.inr ⟨f, rest, hC, fun i hd => ?_⟩)
    rw [← State.takeFrame_portC hC]
    exact step_of_decode_ok hr hf hd

/-! ### The statements -/

/-- Settles O7: the port that alone has a frame waiting is the one served. -/
theorem stepRunsTheDecodedCommand : Obligations.StepRunsTheDecodedCommand := by
  intro s i f rest hr hd
  rcases step_serves_a_port hr with ⟨hF, hC, -⟩ | ⟨g, restF, hF, run⟩ | ⟨g, restC, hC, run⟩
  · simp [hF, hC]
  · refine ⟨fun h _ => ?_, fun h _ => ?_⟩
    · cases hF.symm.trans h
      exact run i hd
    · cases hF.symm.trans h
  · refine ⟨fun _ h => ?_, fun _ h => ?_⟩
    · cases hC.symm.trans h
    · cases hC.symm.trans h
      exact run i hd

/-- Settles O8: whichever port the arbiter serves, it gives its oldest frame; a frame of no byte decodes to no command
on either. -/
theorem eitherWaitingPortIsTaken : Obligations.EitherWaitingPortIsTaken := by
  intro s hr
  refine ⟨fun f restF g restC i j hF hC hf hg => ?_, fun hF hC => ?_, fun s' h => step_of_decode_error hr h rfl⟩
  · rcases step_serves_a_port hr with ⟨h, -, -⟩ | ⟨f', rest, h, run⟩ | ⟨g', rest, h, run⟩
    · cases hF.symm.trans h
    · cases hF.symm.trans h
      exact .inl (run i hf)
    · cases hC.symm.trans h
      exact .inr (run j hg)
  · rcases step_serves_a_port hr with ⟨-, -, idle⟩ | ⟨f, rest, h, -⟩ | ⟨g, rest, h, -⟩
    · exact idle
    · cases hF.symm.trans h
    · cases hC.symm.trans h

end Sys2Proof.Machine
end

section
/-! PROOFS. A stage requested by ADVANCE, and the TICK that enters it (R72, R155, R158, R180). -/

namespace Sys2Proof.Machine

/-! ### ADVANCE -/

/-- ADVANCE with a sound flag and a stage number is refused by its guard, or makes the stage pending (R180). -/
theorem exec_advance {s : State} (hi : s.inited = true) {target force : Byte} {stage : Stage} {k : Bool}
    (ht : target.toNat = stage.num) (hk : isFlag force k) :
    exec (.advance target force) s =
      if s.guardRejects stage k then .next (s.raise ⟨.rejected, some ⟨.rejected, target.toNat, s.cur.tag.num⟩⟩)
      else .next ((s.setPending stage).respond .ok .none) := by
  have admitted : ∀ r, s.permit true false r = r := fun r => State.permit_pass (fun _ => rfl) (by simp [hi])
  have body : exec (.advance target force) s = s.finish
      (if s.guardRejects stage k then .error ⟨.rejected, some ⟨.rejected, target.toNat, s.cur.tag.num⟩⟩
        else done (s.setPending stage)) := by
    rcases hk with ⟨rfl, rfl⟩ | ⟨rfl, rfl⟩ <;> simp [exec, execAdvance, admitted, ht]
  rw [body]
  split <;> rfl

/-- The guard lets a forced request pass, and one for a later stage (R180). -/
theorem State.guardRejects_of_forced_or_later {s : State} {stage : Stage} {k : Bool}
    (h : k = true ∨ s.cur.tag.num < stage.num) : s.guardRejects stage k = false := by
  rcases h with rfl | h
  · rfl
  · simp [State.guardRejects, Nat.not_le.mpr h]

/-! ### TICK with a request pending -/

@[simp] theorem mkStage_elapsed (c : Cfg) (d : StageData) (t : Stage) : (mkStage c d t).elapsed = 0 := by
  cases t <;> rfl

/-- A pending stage is the current one after an accepted TICK, its timer one `dt` on (R155, R158, R159). -/
theorem exec_tick_of_pending {s t : State} {dt : Q16} (h : exec (.tick dt) s = .next t) (hp : s.port = .F)
    (hi : s.inited = true) (h0 : 0 ≤ numOf dt) (hv : s.pendValid = true) :
    t.cur.tag = s.pend.tag ∧ t.cur.elapsed = s.pend.elapsed + numOf dt := by
  rw [exec_tick hp hi h0] at h
  cases h
  simp [State.tick, hv]

/-- Settles O42: the guard lets the request pass, so ADVANCE makes the stage pending; the swap of the TICK takes it,
with the elapsed time 0 that its constructor gave it. -/
theorem advancedStageIsCurrentAfterTheNextTick : Obligations.AdvancedStageIsCurrentAfterTheNextTick := by
  intro s u t stage target force dt hi h0 ht hu _ _ htick hforce hguard
  obtain ⟨k, hk, pass⟩ : ∃ k, isFlag force k ∧ s.guardRejects stage k = false := by
    rcases hforce with rfl | rfl
    · have later : s.cur.tag.num < stage.num := ht ▸ hguard.resolve_left (by decide)
      exact ⟨false, .inl ⟨rfl, rfl⟩, State.guardRejects_of_forced_or_later (.inr later)⟩
    · exact ⟨true, .inr ⟨rfl, rfl⟩, State.guardRejects_of_forced_or_later (.inl rfl)⟩
  rw [exec_advance hi ht hk, pass] at hu
  cases hu
  obtain ⟨tag, elapsed⟩ := exec_tick_of_pending htick rfl hi h0 rfl
  exact ⟨rfl, rfl, by simp [tag], by simp [elapsed]⟩

end Sys2Proof.Machine
end

section
/-! PROOFS. Command frames decoded and encoded (R82, R84, R86, R87, R88, R95). -/

namespace Sys2Proof.Machine

variable {cw : ChannelWidth} {f g : Frame} {n : Nat}

/-! ### The opcode byte and the length of a frame -/

/-- An opcode's byte is the only one that names it (R86). -/
theorem Opcode.ofByte_eq_some_iff {b : Byte} {o : Opcode} : Opcode.ofByte b = some o ↔ b = o.byte := by
  constructor
  · intro h
    simpa [eq_comm] using List.find?_some h
  · rintro rfl
    exact Opcode.ofByte_byte o

/-- The bytes that name no opcode are those of the reserved ranges (R95). -/
theorem Opcode.ofByte_eq_none_iff : ∀ b : Byte, Opcode.ofByte b = none ↔
    (0x08 ≤ b.toNat ∧ b.toNat ≤ 0x0F) ∨ (0x15 ≤ b.toNat ∧ b.toNat ≤ 0x1F) ∨ (0x22 ≤ b.toNat ∧ b.toNat ≤ 0x2F) ∨
      0x33 ≤ b.toNat := by decide +kernel

/-- A frame decodes exactly when it has the byte and the length of an opcode, to that opcode's command (R82, R83). -/
theorem decode_eq_ok_iff {i : Instr} : decode cw f = .ok i ↔
    ∃ o : Opcode, (f.head? = some o.byte ∧ f.length = o.frameLength cw) ∧ o.operands cw f = i := by
  rcases f with _ | ⟨b, t⟩
  · simp [decode]
  · cases ho : Opcode.ofByte b with
    | none =>
      have unnamed : ∀ o : Opcode, b ≠ o.byte := by
        rintro o rfl
        simp at ho
      simp [decode, ho, unnamed]
    | some o =>
      have named := Opcode.ofByte_eq_some_iff.mp ho
      have only : ∀ o' : Opcode, b = o'.byte ↔ o = o' := fun o' => by
        rw [← Opcode.ofByte_eq_some_iff, ho, Option.some_inj]
      by_cases hl : t.length + 1 = o.frameLength cw <;> simp [decode, ho, only, hl]

open Laws in
/-- The frame of a command has the length of its opcode (R82, R87). -/
theorem encode_length (cw : ChannelWidth) (i : Instr) : (encode cw i).length = i.opcode.frameLength cw := by
  cases i
  exacts [EncodedLength.nop cw, EncodedLength.clear cw, EncodedLength.arc _ _ _ _ cw, EncodedLength.fill _ _ cw,
    EncodedLength.decay _ _ cw, EncodedLength.a2l _ _ cw, EncodedLength.rdpix _ _ cw, EncodedLength.wrpix _ _ _ cw,
    EncodedLength.tick _ cw, EncodedLength.advance _ _ cw, EncodedLength.setpulse _ cw,
    EncodedLength.setpal _ _ _ cw, EncodedLength.rdstat cw, EncodedLength.encode _ _ _ _ _ _ cw,
    EncodedLength.rdpkt _ cw, EncodedLength.cfgwr _ _ cw, EncodedLength.cfgrd _ cw, EncodedLength.init cw]

/-! ### Operands read back from a command's frame -/

/-- A reader that can skip leading bytes depends only on what stands from its offset on. -/
theorem read_of_drop_eq {α : Type} {read : Frame → Nat → α}
    (past : ∀ pre f o, read (pre ++ f) (pre.length + o) = read f o) (h : f.drop n = g) (hg : g ≠ []) :
    read f n = read g 0 := by
  have inside : n < f.length := by
    by_contra hn
    exact hg (h.symm.trans (List.drop_eq_nil_of_le (not_lt.mp hn)))
  calc read f n = read (f.take n ++ f.drop n) ((f.take n).length + 0) := by
        rw [List.take_append_drop, List.length_take, min_eq_left inside.le, Nat.add_zero]
    _ = read g 0 := by rw [past, h]

theorem u16At_of_drop {v : BitVec 16} (h : f.drop n = u16Bytes v ++ g) : u16At f n = v :=
  (read_of_drop_eq u16At_append h (by simp [u16Bytes])).trans (u16At_u16Bytes v g)

theorem u32At_of_drop {v : BitVec 32} (h : f.drop n = u32Bytes v ++ g) : u32At f n = v :=
  (read_of_drop_eq u32At_append h (by simp [u32Bytes])).trans (u32At_u32Bytes v g)

theorem colAt_of_drop {c : Color} (hc : c.fits cw) (h : f.drop n = colBytes cw c ++ g) : colAt cw f n = c := by
  have bytes : colBytes cw c ++ g ≠ [] := by cases cw <;> simp [colBytes, channelBytes, u16Bytes]
  exact (read_of_drop_eq (colAt_append cw) h bytes).trans (colAt_colBytes cw c hc g)

/-- What the block reads from the frame of a well-formed command is the command (R84, R87). -/
theorem operands_encode {i : Instr} (h : i.wf cw = true) : i.opcode.operands cw (encode cw i) = i := by
  cases i
  case nop | clear | advance | setpulse | rdstat | cfgrd | init => rfl
  case setpal p s f =>
    obtain ⟨hp, hs, hf⟩ := (setpalOf_wf cw ⟨p, s, f⟩).mp h
    simp only [Instr.opcode, Opcode.operands, Instr.setpal.injEq]
    refine ⟨colAt_of_drop hp (List.append_assoc _ _ _), colAt_of_drop (g := colBytes cw f) hs ?_,
      colAt_of_drop (g := []) hf ?_⟩ <;> cases cw <;> rfl
  all_goals
    simp only [Instr.opcode, Opcode.operands]
    congr 1
  case arc.e_angleFrom | arc.e_angleTo | fill.e_ratio | decay.e_multiplier | decay.e_addition | a2l.e_angle | tick
    | cfgwr.e_value => exact u32At_of_drop rfl
  case rdpix.e_idx | wrpix.e_idx | encode.e_start | encode.e_count | rdpkt => exact u16At_of_drop rfl
  case arc.e_color | fill.e_color | wrpix.e_color =>
    exact colAt_of_drop (of_decide_eq_true h) (List.append_nil _).symm

/-- Settles O1: the frame has its opcode's byte and length, and the operands are read back where they were written. -/
theorem decodeOfEncodedCommand : Obligations.DecodeOfEncodedCommand := fun cw i hw =>
  decode_eq_ok_iff.mpr ⟨i.opcode, ⟨rfl, encode_length cw i⟩, operands_encode hw⟩

/-! ### Bytes written back from a frame's operands -/

/-- The `n` bytes of a frame from an offset on. -/
def bytesAt (f : Frame) (o n : Nat) : Frame := (List.range n).map fun j => byteAt f (o + j)

/-- All bytes of a frame but the first. -/
theorem bytesAt_one (b : Byte) (t : Frame) : bytesAt (b :: t) 1 t.length = t := by
  apply List.ext_getElem
  · simp [bytesAt]
  · intro j _ hj
    simp [bytesAt, byteAt, Nat.add_comm 1 j, hj]

theorem u16Bytes_u16At_eq (f : Frame) (o : Nat) : u16Bytes (u16At f o) = bytesAt f o 2 := u16Bytes_u16At f o

theorem u32Bytes_u32At_eq (f : Frame) (o : Nat) : u32Bytes (u32At f o) = bytesAt f o 4 := u32Bytes_u32At f o

theorem colBytes_colAt_eq (cw : ChannelWidth) (f : Frame) (o : Nat) :
    colBytes cw (colAt cw f o) = bytesAt f o (4 * cw.cb) := colBytes_colAt cw f o

theorem Opcode.opcode_operands (o : Opcode) : (o.operands cw f).opcode = o := by cases o <;> rfl

/-- The operands read from a frame are written back as its bytes after the opcode (R84, R87). -/
theorem operandBytes_operands (o : Opcode) :
    (o.operands cw f).operandBytes cw = bytesAt f 1 (o.frameLength cw - 1) := by
  cases o
  case nop | clear | rdstat | init | advance | setpulse | cfgrd => rfl
  all_goals simp only [Opcode.operands, Instr.operandBytes, u16Bytes_u16At_eq, u32Bytes_u32At_eq, colBytes_colAt_eq]
  case arc | fill | wrpix | setpal => cases cw <;> rfl
  all_goals rfl

/-- Settles O2: the opcode byte and the bytes of the operands are the whole frame. -/
theorem encodeOfDecodedFrame : Obligations.EncodeOfDecodedFrame := by
  intro cw f i hd
  refine ⟨wf_of_decode hd, ?_⟩
  obtain ⟨o, ⟨byte, length⟩, rfl⟩ := decode_eq_ok_iff.mp hd
  obtain ⟨t, rfl⟩ := List.head?_eq_some_iff.mp byte
  have operands : bytesAt (o.byte :: t) 1 (o.frameLength cw - 1) = t := by
    rw [← length]
    exact bytesAt_one o.byte t
  rw [encode, Opcode.opcode_operands, operandBytes_operands, operands]

/-! ### Written frames -/

/-- Settles O4: the rows of the map, and what stands outside them. -/
theorem opcodeBytesAreThoseOfTheMap : Obligations.OpcodeBytesAreThoseOfTheMap :=
  ⟨Opcode.ofByte_eq_none_iff, rfl⟩

/-- A frame written out byte for byte decodes to the command whose frame it is. -/
theorem decode_of_encode_eq {i : Instr} (h : encode cw i = f) (hw : i.wf cw = true) : decode cw f = .ok i :=
  h ▸ decodeOfEncodedCommand cw i hw

/-- A `num` operand is its two's complement integer in units of 1/65536 (R84). -/
theorem numOf_of_toInt {v : Q16} {k : ℤ} (h : v.toInt = k) : numOf v = k / 65536 := by rw [numOf, h]

/-- Settles O5: the frame is written from the command, and so it decodes to it. -/
theorem workedArcFrame : Obligations.WorkedArcFrame := by
  have written : encode .w8 (.arc 0x000A0000#32 0x00320000#32 0x01#8 ⟨200, 100, 50, 25⟩) =
      [0x02#8, 0x00#8, 0x00#8, 0x0A#8, 0x00#8, 0x00#8, 0x00#8, 0x32#8, 0x00#8, 0x01#8, 0xC8#8, 0x64#8, 0x32#8,
       0x19#8] := by decide
  refine ⟨written, decode_of_encode_eq written (by decide), ?_, ?_⟩
  · rw [numOf_of_toInt (k := 10 * 65536) (by decide)]
    norm_num
  · rw [numOf_of_toInt (k := 50 * 65536) (by decide)]
    norm_num

/-- Settles O6: each frame is the one of its command; the last has the byte of TICK and one byte too few. -/
theorem writtenFramesDecode : Obligations.WrittenFramesDecode := by
  refine ⟨decode_of_encode_eq ?_ rfl, decode_of_encode_eq ?_ rfl, ?_, decode_of_encode_eq ?_ rfl,
    decode_of_encode_eq ?_ (by decide), decode_of_encode_eq ?_ rfl, ?_⟩
  case refine_3 =>
    rw [numOf_of_toInt (k := 32768) (by decide)]
    norm_num
  all_goals decide

end Sys2Proof.Machine
end

section
/-! PROOFS. A malformed frame (R83, R252). -/

namespace Sys2Proof.Machine

/-- What a malformed frame leaves: the sticky bit and the answer of BADOPC (R83, R90, R251). -/
theorem State.refuseMalformed_eq (s : State) :
    s.refuseMalformed = { s with
      sticky := { s.sticky with errOpc := true }
      outF := if s.port = .F then s.outF ++ [⟨.badOpc, .none, [0x03#8]⟩] else s.outF
      outC := if s.port = .C then s.outC ++ [⟨.badOpc, .none, [0x03#8]⟩] else s.outC } := by
  have log : s.log ++ Option.toList none = s.log := List.append_nil _
  unfold State.refuseMalformed State.raise
  rw [log]
  rfl

/-- Settles O3: a frame decodes exactly when it has the byte and the length of an opcode. -/
theorem malformedFrameRaisesBadOpc : Obligations.MalformedFrameRaisesBadOpc := by
  intro s s' f _ hr hf
  constructor
  · intro malformed
    rw [← State.refuseMalformed_eq]
    cases hd : decode s'.build.cw f with
    | error e => exact step_of_decode_error hr hf hd
    | ok i =>
      obtain ⟨o, sound, -⟩ := decode_eq_ok_iff.mp hd
      exact absurd ⟨o, sound⟩ malformed
  · rintro ⟨o, sound⟩
    have hd := decode_eq_ok_iff.mpr ⟨o, sound, rfl⟩
    exact ⟨_, hd, step_of_decode_ok hr hf hd⟩

end Sys2Proof.Machine
end

section
/-! PROOFS. The flag of SETPULSE and the answers of CFGRD (R84, R85, R184, R237). -/

namespace Sys2Proof.Machine

variable {s : State}

/-! ### SETPULSE -/

/-- SETPULSE is checked by its flag alone once the block is initialised, on either port (R258, R262). -/
theorem exec_setpulse_eq (hi : s.inited = true) (flag : Byte) :
    exec (.setpulse flag) s = s.finish (withFlag flag fun k => done { s with pulsing := k }) :=
  congrArg s.finish (State.permit_pass (fun _ => rfl) (by simp [hi]))

/-- Settles O43: a sound flag is stored; a byte above 1 is no flag. -/
theorem setpulseSetsTheFlag : Obligations.SetpulseSetsTheFlag := by
  intro s flag on hi
  rw [exec_setpulse_eq hi]
  refine ⟨?_, fun h => ?_⟩
  · rintro (⟨rfl, rfl⟩ | ⟨rfl, rfl⟩)
    · rfl
    · rfl
  · rcases withFlag_cases flag fun k => done { s with pulsing := k } with ⟨rfl, -⟩ | ⟨rfl, -⟩ | ⟨-, -, refused⟩
    · exact absurd h (by decide)
    · exact absurd h (by decide)
    · rw [refused, State.finish_refuse]

/-! ### CFGRD -/

/-- CFGRD refuses a reserved number (R237). -/
theorem exec_cfgrd_reserved (hp : s.port = .F) {reg : Byte} (hr : cfgRegOf reg = none) :
    exec (.cfgrd reg) s = .next (s.raise ⟨.range, none⟩) := by
  simp only [exec, execCfgrd, s.permit_before_init hp, hr, State.finish_refuse]

/-- Settles O51: a reserved number names no register; each of the others names its own, read by `readReg`. -/
theorem cfgrdAnswersTheRegister : Obligations.CfgrdAnswersTheRegister := by
  intro s reg q hp hq
  obtain rfl : q = q16Of := funext hq
  refine ⟨fun h => exec_cfgrd_reserved hp ((cfgRegOf_eq_none_iff reg).mpr h), fun v h => ?_⟩
  obtain ⟨r, rfl, rfl⟩ : ∃ r : CfgReg, reg = r.number ∧ v = readReg s.cfg r := by
    rcases h with h | h | h | h | h | h | h | h | h | h | h | h | h
    exacts [⟨.nrings, h⟩, ⟨.n0, h⟩, ⟨.n1, h⟩, ⟨.flags, h⟩, ⟨.resetTime, h⟩, ⟨.startAccel, h⟩, ⟨.startTargetSpeed, h⟩,
      ⟨.advanceTime, h⟩, ⟨.windupAccel, h⟩, ⟨.windupTargetSpeed, h⟩, ⟨.fillRate, h⟩, ⟨.fadeTime, h⟩, ⟨.blinkRate, h⟩]
  exact exec_cfgrd_number hp r

end Sys2Proof.Machine
end

section
/-! PROOFS. The one response of a command (R85, R90, R91). -/

namespace Sys2Proof.Machine

/-! ### Bodies by the answer they give -/

/-- A body sends nothing itself: carried out, its result has `n` bytes, and the responses, the port served and the build
are as before; refused, its code is not `OK` (R90, R91). -/
def CmdResult.Answers (s : State) (n : Nat) : CmdResult → Prop
  | .ok (u, x) => (u.outF = s.outF ∧ u.outC = s.outC ∧ u.port = s.port ∧ u.build = s.build) ∧
      (x.bytes s.build.cw).length = n
  | .error e => e.code ≠ .ok

section Checks

variable {P : CmdResult → Prop} {s : State} {r : CmdResult}

/-- The common checks keep what every refusal has (R258). -/
theorem State.permit_induction (refused : ∀ code, code ≠ .ok → P (refuse code)) (h : P r) (c i : Bool) :
    P (s.permit c i r) := by
  rcases s.permit_cases c i r with ⟨-, -, e⟩ | ⟨-, -, -, e⟩ | ⟨-, -, e⟩ <;> rw [e]
  · exact refused _ (by decide)
  · exact refused _ (by decide)
  · exact h

/-- A flag operand keeps what every refusal has (R84). -/
theorem withFlag_induction (refused : ∀ code, code ≠ .ok → P (refuse code)) {b : Byte} {f : Bool → CmdResult}
    (h : ∀ k, P (f k)) : P (withFlag b f) := by
  rcases withFlag_cases b f with ⟨-, e⟩ | ⟨-, e⟩ | ⟨-, -, e⟩ <;> rw [e]
  · exact h _
  · exact h _
  · exact refused _ (by decide)

end Checks

/-- The body of every command answers with the bytes that R90 lists for it. -/
theorem exec_eq_finish_answers (i : Instr) (s : State) :
    ∃ r, exec i s = s.finish r ∧ CmdResult.Answers s (resultLength s.build.cw i) r := by
  have refused : ∀ {n : Nat} (code : RespCode), code ≠ .ok → (refuse code).Answers s n := fun _ h => h
  have range : ∀ {n : Nat}, (refuse .range).Answers s n := refused _ (by decide)
  have inRange : ∀ {n : Nat} {c : Prop} [Decidable c] {r : CmdResult},
      r.Answers s n → CmdResult.Answers s n (if c then refuse .range else r) := fun h =>
    iteInduction (fun _ => range) fun _ => h
  have same : s.outF = s.outF ∧ s.outC = s.outC ∧ s.port = s.port ∧ s.build = s.build := ⟨rfl, rfl, rfl, rfl⟩
  cases i <;> refine ⟨_, rfl, State.permit_induction refused ?_ _ _⟩
  case nop | clear | decay | setpal | rdstat => exact ⟨same, rfl⟩
  case arc | setpulse => exact withFlag_induction refused fun _ => ⟨same, rfl⟩
  case fill | a2l | rdpkt => exact inRange ⟨same, rfl⟩
  case rdpix => exact inRange (inRange ⟨same, colBytes_length _ _⟩)
  case wrpix => exact inRange (inRange ⟨same, rfl⟩)
  case encode => exact inRange (inRange (inRange ⟨same, rfl⟩))
  case tick => exact inRange ⟨⟨s.tick_outF _, s.tick_outC _, s.tick_port _, s.tick_build _⟩, rfl⟩
  case init => exact iteInduction (fun _ => refused _ (by decide)) fun _ => ⟨same, rfl⟩
  case advance =>
    refine withFlag_induction refused fun _ => ?_
    split
    · exact RespCode.noConfusion
    · exact iteInduction (fun _ => RespCode.noConfusion) fun _ => ⟨same, rfl⟩
  case cfgwr =>
    split
    · exact range
    · exact iteInduction (fun _ => refused _ (by decide)) fun _ => inRange ⟨same, rfl⟩
  case cfgrd =>
    split
    · exact range
    · exact ⟨same, rfl⟩

/-- Settles O14: `State.finish` sends the one response, on the port served. -/
theorem oneResponseFrameOnTheCommandsPort : Obligations.OneResponseFrameOnTheCommandsPort := by
  intro i s t ht
  obtain ⟨r, hr, answers⟩ := exec_eq_finish_answers i s
  rcases State.finish_eq_next.mp (hr.symm.trans ht) with ⟨u, x, rfl, rfl⟩ | ⟨e, rfl, rfl⟩
  · obtain ⟨⟨outF, outC, port, build⟩, length⟩ := answers
    refine ⟨Response.of s.build.cw .ok x, ?_, ?_, rfl, fun _ => length, fun h => absurd rfl h⟩
    · rw [State.respond_outF, outF, port, build]
    · rw [State.respond_outC, outC, port, build]
  · exact ⟨Response.of s.build.cw e.code .none, rfl, rfl, rfl, fun h => absurd h answers, fun _ => rfl⟩

end Sys2Proof.Machine
end

section
/-! PROOFS. One pixel read and written: RDPIX and WRPIX (R96, R136, R138), and the RGBW word of a pixel (R64). -/

namespace Sys2Proof.Machine

variable {s : State} {ring : Byte} {idx : BitVec 16}

/-! ### A pixel operand -/

/-- A pixel that exists passes the checks of its ring and of its index (R96). -/
theorem State.withRing_pixel_pass {body : Nat → CmdResult} (hr : ring.toNat < s.nringsL)
    (hx : idx.toNat < s.ringSize ring.toNat) :
    (s.withRing ring fun k => if s.ringSize k ≤ idx.toNat then refuse .range else body k) = body ring.toNat := by
  rw [State.withRing_pass hr, if_neg (not_le.mpr hx)]

/-- A pixel that does not exist is refused, for its ring or for its index (R96). -/
theorem State.withRing_pixel_refuse {body : Nat → CmdResult}
    (h : s.nringsL ≤ ring.toNat ∨ s.ringSize ring.toNat ≤ idx.toNat) :
    (s.withRing ring fun k => if s.ringSize k ≤ idx.toNat then refuse .range else body k) = refuse .range := by
  rcases lt_or_ge ring.toNat s.nringsL with hr | hr
  · rw [State.withRing_pass hr, if_pos (h.resolve_left (not_le.mpr hr))]
  · exact State.withRing_refuse hr

/-! ### RDPIX -/

/-- RDPIX of a pixel that exists answers it (R136). -/
theorem exec_rdpix (hp : s.port = .F) (hi : s.inited = true) (hr : ring.toNat < s.nringsL)
    (hx : idx.toNat < s.ringSize ring.toNat) :
    exec (.rdpix ring idx) s = .next (s.respond .ok (.col (s.pixel ring.toNat idx.toNat))) :=
  congrArg s.finish ((State.permit_portF hp hi false false _).trans (State.withRing_pixel_pass hr hx))

/-- RDPIX of a pixel that does not exist is refused (R136). -/
theorem exec_rdpix_missing (hp : s.port = .F) (hi : s.inited = true)
    (h : s.nringsL ≤ ring.toNat ∨ s.ringSize ring.toNat ≤ idx.toNat) :
    exec (.rdpix ring idx) s = .next (s.raise ⟨.range, none⟩) :=
  congrArg s.finish ((State.permit_portF hp hi false false _).trans (State.withRing_pixel_refuse h))

/-- The RGBW word is the number whose digits to base `2 ^ CW` are the channels (R64). -/
theorem rgbwWord_toNat {cw : ChannelWidth} {c : Color} (h : c.fits cw) :
    (rgbwWord cw c).toNat = c.r * 2 ^ (3 * cw.bits) + c.g * 2 ^ (2 * cw.bits) + c.b * 2 ^ cw.bits + c.w := by
  obtain ⟨hr, hg, hb, hw⟩ := h
  have channel : ∀ {v : Nat}, v ≤ cw.cmax → (BitVec.ofNat cw.bits v).toNat = v := fun hv =>
    (BitVec.toNat_ofNat _ _).trans (Nat.mod_eq_of_lt (lt_two_pow_bits hv))
  rw [rgbwWord, BitVec.toNat_cast, toNat_append_eq, toNat_append_eq, toNat_append_eq, channel hr, channel hg,
    channel hb, channel hw]
  ring

/-- The host reads from the answer to RDPIX the pixel that was answered (R85, R90, R136). -/
theorem debugWord_answer {cw : ChannelWidth} {c : Color} (h : c.fits cw) (code : RespCode) :
    debugWord cw (Response.of cw code (.col c)).frame = rgbwWord cw c :=
  congrArg (rgbwWord cw) (colAt_of_drop (g := []) h (List.append_nil _).symm)

/-- Settles O27: the checks of a pixel operand decide between the answer and RANGE, and the answer's colour operand
carries the pixel whole. -/
theorem rdpixAnswersThePixel : Obligations.RdpixAnswersThePixel := fun _ _ _ hp hi =>
  ⟨exec_rdpix_missing hp hi, exec_rdpix hp hi, fun _ _ hc => ⟨debugWord_answer hc .ok, rgbwWord_toNat hc⟩⟩

/-! ### WRPIX -/

/-- WRPIX of a pixel that exists writes its cell (R138). -/
theorem exec_wrpix (hp : s.port = .F) (hi : s.inited = true) (hr : ring.toNat < s.nringsL)
    (hx : idx.toNat < s.ringSize ring.toNat) (color : Color) :
    exec (.wrpix ring idx color) s =
      .next ((s.setRing ring.toNat (Memory.write Color.black (s.ring ring.toNat) idx.toNat color)).respond .ok .none) :=
  congrArg s.finish ((State.permit_portF hp hi false false _).trans (State.withRing_pixel_pass hr hx))

/-- WRPIX of a pixel that does not exist is refused (R138). -/
theorem exec_wrpix_missing (hp : s.port = .F) (hi : s.inited = true)
    (h : s.nringsL ≤ ring.toNat ∨ s.ringSize ring.toNat ≤ idx.toNat) (color : Color) :
    exec (.wrpix ring idx color) s = .next (s.raise ⟨.range, none⟩) :=
  congrArg s.finish ((State.permit_portF hp hi false false _).trans (State.withRing_pixel_refuse h))

/-- A pixel of either ring after one cell was written (R12). -/
theorem State.pixel_setRing_write (s : State) {j k : Nat} (hj : j < 2) (hk : k < 2) (x i : Nat) (color : Color) :
    (s.setRing j (Memory.write Color.black (s.ring j) x color)).pixel k i =
      if k = j ∧ i = x then color else s.pixel k i := by
  have same : (k = 0 ↔ j = 0) ↔ k = j := by omega
  rw [State.pixel_setRing, Memory.read_write]
  by_cases h : k = j
  · subst h
    simp [State.pixel]
  · simp [same, h]

/-- Settles O28: a write to one cell of one ring. -/
theorem wrpixWritesOnePixel : Obligations.WrpixWritesOnePixel := by
  intro s ring idx color hp hi hn
  refine ⟨fun h => exec_wrpix_missing hp hi h color, fun hr hx => ?_⟩
  exact ⟨_, _, _, rfl, exec_wrpix hp hi hr hx color,
    fun k i hk => s.pixel_setRing_write (hr.trans_le hn) hk idx.toNat i color⟩

end Sys2Proof.Machine
end

section
/-! PROOFS. Colours compared channel by channel (R23, R110). -/

namespace Sys2Proof

/-- No channel of `c` is greater than the same channel of `d`. -/
def Color.AtMost (c d : Color) : Prop := c.r ≤ d.r ∧ c.g ≤ d.g ∧ c.b ≤ d.b ∧ c.w ≤ d.w

/-- The colour with all channels equal. -/
def Color.uniform (n : Nat) : Color := ⟨n, n, n, n⟩

theorem Color.eq_black_of_atMost_uniform_zero {c : Color} (h : c.AtMost (Color.uniform 0)) : c = Color.black := by
  obtain ⟨hr, hg, hb, hw⟩ := h
  calc c = ⟨c.r, c.g, c.b, c.w⟩ := rfl
    _ = ⟨0, 0, 0, 0⟩ := by
      rw [Nat.le_zero.mp hr, Nat.le_zero.mp hg, Nat.le_zero.mp hb, Nat.le_zero.mp hw]

end Sys2Proof

namespace Sys2Proof.Machine

theorem atMost_maxColor (p t : Color) : p.AtMost (maxColor p t) :=
  ⟨le_max_left _ _, le_max_left _ _, le_max_left _ _, le_max_left _ _⟩

theorem maxColor_black (p : Color) : maxColor p Color.black = p := by
  simp [maxColor, Color.black]

/-- Of two colours that a pixel is raised to in turn, the second decides if it is the greater. -/
theorem maxColor_maxColor_of_atMost {t₁ t₂ : Color} (h : t₁.AtMost t₂) (p : Color) :
    maxColor (maxColor p t₁) t₂ = maxColor p t₂ := by
  obtain ⟨hr, hg, hb, hw⟩ := h
  simp only [maxColor, max_assoc, max_eq_right hr, max_eq_right hg, max_eq_right hb, max_eq_right hw]

/-- Scaling is monotone in the ratio (R110, R111). -/
theorem scale_atMost_scale (cw : ChannelWidth) (c : Color) {r₁ r₂ : ℚ} (h : r₁ ≤ r₂) :
    (scale cw c r₁).AtMost (scale cw c r₂) :=
  ⟨chan_mul_mono cw _ h, chan_mul_mono cw _ h, chan_mul_mono cw _ h, chan_mul_mono cw _ h⟩

end Sys2Proof.Machine
end

section
/-! PROOFS. CLEAR (R132) and FILL (R126, R127). -/

namespace Sys2Proof.Machine

variable {s : State}

/-! ### Rings that do not exist -/

/-- A draw operation leaves ring 0 where no ring exists (R25). -/
theorem State.onRings_ring0_of_eq_zero (f : Nat → Memory Color → Memory Color) (h : s.nringsL = 0) :
    (s.onRings f).ring0 = s.ring0 :=
  if_neg (by omega)

/-- A draw operation leaves ring 1 where at most one ring exists (R25). -/
theorem State.onRings_ring1_of_le_one (f : Nat → Memory Color → Memory Color) (h : s.nringsL ≤ 1) :
    (s.onRings f).ring1 = s.ring1 :=
  if_neg (by omega)

/-! ### CLEAR -/

/-- CLEAR has no check of its own (R132). -/
theorem exec_clear (hp : s.port = .F) (hi : s.inited = true) :
    exec .clear s = .next (s.drawClear.respond .ok .none) :=
  congrArg s.finish (State.permit_portF hp hi false false _)

/-- Settles O18: CLEAR leaves the rings of its body, and RDPIX then answers a pixel of them. -/
theorem clearZeroesEveryPixel : Obligations.ClearZeroesEveryPixel := by
  refine ⟨fun _ => rfl, fun s hp hi => ⟨s.drawClear.ring0, s.drawClear.ring1, s.drawClear, rfl, exec_clear hp hi,
    State.onRings_ring0_of_eq_zero _, State.onRings_ring1_of_le_one _,
    fun k i hk _ => State.pixel_drawClear k i hk, fun ring idx hr hx => ?_⟩⟩
  have answer := exec_rdpix (s := s.drawClear) hp hi hr hx
  rwa [State.pixel_drawClear _ _ hr] at answer

/-! ### FILL -/

/-- FILL is accepted for a ratio in `[0, 1]` and leaves what its body draws (R126). -/
theorem exec_fill (hp : s.port = .F) (hi : s.inited = true) {ratio : Q16} (h0 : 0 ≤ numOf ratio)
    (h1 : numOf ratio ≤ 1) (color : Color) :
    exec (.fill ratio color) s = .next ((s.drawFill (numOf ratio) color).respond .ok .none) := by
  have inRange : ¬ (numOf ratio < 0 ∨ 1 < numOf ratio) := not_or.mpr ⟨not_lt.mpr h0, not_lt.mpr h1⟩
  exact congrArg s.finish ((State.permit_portF hp hi false false _).trans (if_neg inRange))

/-- FILL's colour is the effective colour scaled by the ratio (R118, R126). -/
theorem State.fillColor_eq (s : State) (ratio : ℚ) (c : Color) :
    s.fillColor ratio c = scale s.build.cw (s.effcol c) ratio := rfl

/-- A FILL does not change the colour of the next one: it leaves the pulse and the build (R118). -/
theorem State.fillColor_drawFill (s : State) (r₁ r₂ : ℚ) (c d : Color) :
    (s.drawFill r₁ d).fillColor r₂ c = s.fillColor r₂ c := rfl

/-- Settles O20: FILL leaves the rings of its body, pixel by pixel `maxColor` with the scaled effective colour. -/
theorem fillRaisesEveryChannel : Obligations.FillRaisesEveryChannel := by
  intro s ratio color hp hi h0 h1
  refine ⟨(s.drawFill (numOf ratio) color).ring0, (s.drawFill (numOf ratio) color).ring1,
    s.drawFill (numOf ratio) color, rfl, exec_fill hp hi h0 h1 color, State.onRings_ring0_of_eq_zero _,
    State.onRings_ring1_of_le_one _, fun k i hk hx => ?_⟩
  rw [State.pixel_drawFill _ _ _ _ hk hx, State.fillColor_eq, State.effcol_eq]
  exact ⟨rfl, rfl, rfl, rfl⟩

/-- Settles O21: raising a pixel to a colour is monotone in it, a ratio of 0 gives black, and the colours of two FILLs
are ordered as their ratios. -/
theorem fillIsMonotone : Obligations.FillIsMonotone := by
  intro s c r₁ r₂ k i hk hx _ h _
  have once : ∀ r, (s.drawFill r c).pixel k i = maxColor (s.pixel k i) (s.fillColor r c) := fun r =>
    State.pixel_drawFill r c k i hk hx
  have twice : ((s.drawFill r₁ c).drawFill r₂ c).pixel k i =
      maxColor ((s.drawFill r₁ c).pixel k i) ((s.drawFill r₁ c).fillColor r₂ c) :=
    State.pixel_drawFill r₂ c k i hk hx
  obtain ⟨hr, hg, hb, hw⟩ := atMost_maxColor (s.pixel k i) (s.fillColor r₁ c)
  rw [twice, State.fillColor_drawFill, once r₁, once 0, once r₂]
  refine ⟨hr, hg, hb, hw, ?_, ?_⟩
  · rw [State.fillColor_eq, scale_zero, maxColor_black]
  · exact maxColor_maxColor_of_atMost (scale_atMost_scale _ _ h) _

end Sys2Proof.Machine
end

section
/-! PROOFS. What DECAY does to a pixel, once and again and again (R130, R131, R298). -/

namespace Sys2Proof.Machine

/-! ### One DECAY without an addition -/

/-- With addition 0 a pixel is scaled (R111, R130). -/
theorem decayColor_zero_addition (cw : ChannelWidth) (m : ℚ) (p : Color) : decayColor cw m 0 p = scale cw p m := by
  simp only [decayColor, scale, add_zero]

/-- Settles O23: with addition 0 DECAY scales every pixel, by one and by zero. -/
theorem decayIdentityAndZero : Obligations.DecayIdentityAndZero := by
  intro s k i hs hk hx
  have fits : (s.pixel k i).fits s.build.cw := (hs.ringLegal hk).read_fits i
  simp only [State.pixel_drawDecay _ _ _ _ hk hx, decayColor_zero_addition]
  exact ⟨scale_one fits, scale_zero _ _⟩

/-! ### Repeated DECAY -/

/-- Scaling by less than one takes at least one from a channel that is not zero. -/
theorem chan_mul_le_pred (cw : ChannelWidth) {m : ℚ} (hm : m < 1) (v : Nat) : chan cw (v * m) ≤ v - 1 := by
  cases v with
  | zero => exact (chan_of_nonpos (by simp)).le
  | succ v =>
    have below : ((v + 1 : Nat) : ℚ) * m < ((v + 1 : Nat) : ℤ) := by
      rw [Int.cast_natCast]
      exact mul_lt_of_lt_one_right (by positivity) hm
    have floor : ⌊((v + 1 : Nat) : ℚ) * m⌋ < ((v + 1 : Nat) : ℤ) := Int.floor_lt.mpr below
    unfold chan sat
    omega

/-- A DECAY with a multiplier below one lowers a bound on all channels by one. -/
theorem decayColor_atMost_pred {cw : ChannelWidth} {m : ℚ} (hm : m < 1) {p : Color} {n : Nat}
    (h : p.AtMost (Color.uniform n)) : (decayColor cw m 0 p).AtMost (Color.uniform (n - 1)) := by
  have channel : ∀ {v : Nat}, v ≤ n → chan cw (v * m) ≤ n - 1 := fun {v} hv =>
    (chan_mul_le_pred cw hm v).trans (Nat.sub_le_sub_right hv 1)
  obtain ⟨hr, hg, hb, hw⟩ := h
  rw [decayColor_zero_addition]
  exact ⟨channel hr, channel hg, channel hb, channel hw⟩

theorem iterate_decayColor_atMost {cw : ChannelWidth} {m : ℚ} (hm : m < 1) {p : Color} {n : Nat}
    (h : p.AtMost (Color.uniform n)) (k : Nat) :
    ((decayColor cw m 0)^[k] p).AtMost (Color.uniform (n - k)) := by
  induction k with
  | zero => exact h
  | succ k ih =>
    rw [Function.iterate_succ_apply', Nat.sub_succ]
    exact decayColor_atMost_pred hm ih

/-- Settles O24: every DECAY lowers the bound CMAX by one, so after CMAX of them it is zero. -/
theorem repeatedDecayReachesZero : Obligations.RepeatedDecayReachesZero := by
  intro cw m p _ hm hp
  have bound : ((decayColor cw m 0)^[cw.cmax] p).AtMost (Color.uniform (cw.cmax - cw.cmax)) :=
    iterate_decayColor_atMost hm hp cw.cmax
  rw [Nat.sub_self] at bound
  exact ⟨cw.cmax, le_rfl, Color.eq_black_of_atMost_uniform_zero bound⟩

end Sys2Proof.Machine
end

section
/-! PROOFS. The fractional index of an angle (R11, R114), and A2L, which answers it (R115). -/

namespace Sys2Proof.Machine

/-! ### The fractional index -/

/-- Whole turns do not change a normalised angle (R11). -/
theorem norm360_add_turns (a : ℚ) (k : ℤ) : norm360 (a + 360 * k) = norm360 a := by
  have turns : ⌊(a + 360 * k) / 360⌋ = ⌊a / 360⌋ + k := by
    rw [add_div, mul_div_cancel_left₀ _ (by norm_num), Int.floor_add_intCast]
  unfold norm360
  rw [turns]
  push_cast
  ring

/-- Whole turns do not change the index of an angle (R114). -/
theorem led_add_turns (n : Nat) (a : ℚ) (k : ℤ) : led n (a + 360 * k) = led n a := by
  rw [led, norm360_add_turns, led]

/-- The whole index is the floor of the fractional one, which is not negative (R114). -/
theorem wholeIndex_eq_floor (n : Nat) (a : ℚ) : (wholeIndex n a : ℤ) = ⌊led n a⌋ :=
  Int.toNat_of_nonneg (Int.floor_nonneg.mpr (led_nonneg n a))

/-- The sub-pixel part is the fractional part of the index (R11, R114). -/
theorem subPixel_eq_fract (n : Nat) (a : ℚ) : subPixel n a = Int.fract (led n a) := rfl

theorem wholeIndex_add_subPixel (n : Nat) (a : ℚ) : (wholeIndex n a : ℚ) + subPixel n a = led n a := by
  rw [← Int.cast_natCast (wholeIndex n a), wholeIndex_eq_floor, subPixel_eq_fract, Int.floor_add_fract]

/-- Settles O26: the range is that of the normalised angle, the period is a whole turn, and the index splits into its
floor and its fractional part. -/
theorem fractionalIndexIsInRangeAndPeriodic : Obligations.FractionalIndexIsInRangeAndPeriodic := by
  intro n a k hn
  have sub : subPixel n a = Int.fract (led n a) := subPixel_eq_fract n a
  exact ⟨rfl, led_nonneg n a, led_lt hn a, led_add_turns n a k, wholeIndex_lt hn a, wholeIndex_eq_floor n a,
    sub ▸ Int.fract_nonneg _, sub ▸ Int.fract_lt_one _, (wholeIndex_add_subPixel n a).symm⟩

/-! ### A2L -/

/-- A2L is checked by its ring operand alone on port F of an initialised block (R115, R258). -/
theorem exec_a2l_eq {s : State} (hp : s.port = .F) (hi : s.inited = true) (ring : Byte) (angle : Q16) :
    exec (.a2l ring angle) s =
      s.finish (s.withRing ring fun k => .ok (s, .unum (led (s.ringSize k) (numOf angle)))) :=
  congrArg s.finish (State.permit_portF hp hi false false _)

/-- Settles O25: a ring that exists lets the body answer; any other is refused. -/
theorem a2lAnswersTheFractionalIndex : Obligations.A2lAnswersTheFractionalIndex := by
  intro s ring angle hp hi
  rw [exec_a2l_eq hp hi]
  refine ⟨fun h => ?_, fun h => ?_⟩
  · rw [State.withRing_refuse h, State.finish_refuse]
  · rw [State.withRing_pass h, State.finish_ok, led]

end Sys2Proof.Machine
end

section
/-! PROOFS. TICK as a command (R150, R151), and the swap that begins it (R155, R156). -/

namespace Sys2Proof.Machine

variable {s : State}

/-! ### A TICK refused -/

/-- Settles O29: the check of `dt` stands before the body, so the swap is not reached. -/
theorem negativeTickIsRefusedWhole : Obligations.NegativeTickIsRefusedWhole := fun s dt hp hi hneg =>
  calc exec (.tick dt) s = s.finish (if numOf dt < 0 then refuse .range else done (s.tick (numOf dt))) :=
        congrArg s.finish (State.permit_portF hp hi false false _)
    _ = .next (s.raise ⟨.range, none⟩) := by rw [if_pos hneg, State.finish_refuse]

/-! ### The swap -/

/-- The swap into any stage but Dark has no entry action (R156). -/
theorem State.enterStage_of_ne_dark {t : Stage} (h : t ≠ .dark) : s.enterStage t = s := by
  cases t
  case dark => exact absurd rfl h
  all_goals rfl

/-- Settles O30: the swap is that of `swap_cases`; the entry actions of Dark are CLEAR on the rings that exist and the
pulse off. -/
theorem swapTakesThePendingStage : Obligations.SwapTakesThePendingStage := by
  intro s
  rcases s.swap_cases with ⟨hv, taken⟩ | ⟨hn, kept⟩
  · refine ⟨fun hn => ?_, fun _ hd => ?_, fun _ hd => ?_⟩
    · cases hv.symm.trans hn
    · rw [taken, State.enterStage_of_ne_dark hd]
    · refine ⟨s.drawClear.ring0, s.drawClear.ring1, ?_, State.onRings_ring0_of_eq_zero _,
        State.onRings_ring1_of_le_one _, fun k i hk _ => (State.swap_into_dark hv hd).2 k i hk⟩
      rw [taken, hd]
      rfl
  · refine ⟨fun _ => kept, fun hv => ?_, fun hv => ?_⟩
    · cases hn.symm.trans hv
    · cases hn.symm.trans hv

end Sys2Proof.Machine
end

section
/-! PROOFS. A TICK stage by stage (R161 to R170): the state in which each update rule ends, and the request it makes
there. -/

namespace Sys2Proof.Machine

variable {s : State}

/-! ### What a TICK makes of the current stage data -/

/-- The state that an update rule draws in, but for the timer: after the swap and the pulse phase (R155, R157). -/
def State.phased (s : State) (dt : ℚ) : State := { s.swap with pulseH := s.pulseH + s.cfg.blinkRate * dt }

/-- After its swap a TICK advances the phase and the timer and runs the update rule (R150, R157, R158). -/
theorem State.tick_of_swap_cur {c : StageData} (h : s.swap.cur = c) (dt : ℚ) :
    s.tick dt = ({ s.phased dt with cur := c.age dt } : State).update dt := by
  rw [← h, State.phased, ← s.swap_pulseH, ← s.swap_cfg]
  rfl

/-- Dark draws nothing and asks for Starting when AUTO_RESET is set and its time is past (R161). -/
theorem State.tick_in_dark {d : DarkData} (h : s.swap.cur = .dark d) (dt : ℚ) :
    s.tick dt =
      ({ s.phased dt with cur := .dark { d with elapsedTime := d.elapsedTime + dt } } : State).request
        (autoReset s.cfg && decide (d.resetTime < d.elapsedTime + dt)) .starting false := by
  rw [State.tick_of_swap_cur h, ← s.swap_cfg]
  rfl

/-- Starting: the particle moves with the speed it had, the speed is raised after it and clamped, and the trigger tests
the unclamped sum (R162). -/
theorem State.tick_in_starting {d : StartingData} (h : s.swap.cur = .starting d) (dt : ℚ) {new sum : ℚ}
    (hnew : new = norm360 (d.particlePosition + d.particleSpeed * dt)) (hsum : sum = d.particleSpeed + d.accel * dt) :
    s.tick dt =
      ({ ((s.phased dt).drawDecay (4 / 5) 0).drawArc d.particlePosition new true s.pal.primary with
        cur := .starting { d with
          elapsedTime := d.elapsedTime + dt, particlePosition := new, particleSpeed := min sum d.targetSpeed } } :
        State).request (decide (d.targetSpeed < sum)) .idle false := by
  rw [State.tick_of_swap_cur h, ← s.swap_pal, hnew, hsum]
  rfl

/-- Idle: the particle moves and is drawn; Windup is asked for when AUTO_ADVANCE is set and the time is past (R164). -/
theorem State.tick_in_idle {d : IdleData} (h : s.swap.cur = .idle d) (dt : ℚ) {new : ℚ}
    (hnew : new = norm360 (d.particlePosition + d.particleSpeed * dt)) :
    s.tick dt =
      ({ ((s.phased dt).drawDecay (4 / 5) 0).drawArc d.particlePosition new true s.pal.primary with
        cur := .idle { d with elapsedTime := d.elapsedTime + dt, particlePosition := new } } : State).request
        (autoAdvance s.cfg && decide (d.advanceTime < d.elapsedTime + dt)) .windup false := by
  rw [State.tick_of_swap_cur h, ← s.swap_pal, ← s.swap_cfg, hnew]
  rfl

/-- Windup: decay and the new kinematics always; then either the collision asks for Explosion or both arcs are drawn
(R165, R166). -/
theorem State.tick_in_windup {d d' : WindupData} (h : s.swap.cur = .windup d) (dt : ℚ)
    (hd : d' = WindupData.move { d with elapsedTime := d.elapsedTime + dt } dt) {v : State}
    (hv : v = { (s.phased dt).drawDecay (4 / 5) 0 with cur := .windup d' }) :
    s.tick dt =
      if collision d' then v.request true .explosion false
      else (v.drawArc d.firstParticlePosition d'.firstParticlePosition true s.pal.primary).drawArc
        d.secondParticlePosition d'.secondParticlePosition false s.pal.secondary := by
  rw [State.tick_of_swap_cur h, ← s.swap_pal, hv, hd]
  rfl

/-- Explosion: the clamped ratio is stored and drawn, the trigger tests the unclamped sum (R168). -/
theorem State.tick_in_explosion {d : ExplosionData} (h : s.swap.cur = .explosion d) (dt : ℚ) {sum ratio : ℚ}
    (hsum : sum = d.fillRatio + d.fillRate * dt) (hratio : ratio = min (max sum 0) 1) :
    s.tick dt =
      ({ (s.phased dt).drawFill ratio s.pal.fill with
        cur := .explosion ⟨d.elapsedTime + dt, ratio, d.fillRate⟩ } : State).request
        (decide (1 < sum)) .fade false := by
  rw [State.tick_of_swap_cur h, ← s.swap_pal, hratio, hsum]
  rfl

/-- Fade: decay always, and a forced request for Dark when the time is past (R170). -/
theorem State.tick_in_fade {d : FadeData} (h : s.swap.cur = .fade d) (dt : ℚ) :
    s.tick dt =
      ({ (s.phased dt).drawDecay (97 / 100) 0 with
        cur := .fade { d with elapsedTime := d.elapsedTime + dt } } : State).request
        (decide (d.targetTime < d.elapsedTime + dt)) .dark true := by
  rw [State.tick_of_swap_cur h]
  rfl

/-! ### The command -/

/-- An update rule's request is for a later stage or forced, so the guard lets it pass and only its trigger decides
(R180, R183). -/
theorem State.request_of_passes {t : Stage} {k : Bool} (h : k = true ∨ s.cur.tag.num < t.num) {p : Prop} [Decidable p]
    {fires : Bool} (hp : fires = true ↔ p) : s.request fires t k = if p then s.setPending t else s := by
  have pass := State.guardRejects_of_forced_or_later h
  rcases s.request_cases fires t k with ⟨hf, -, e⟩ | ⟨hf, e⟩ <;> rw [e]
  · rw [if_pos (hp.mp hf)]
  · rw [if_neg (by simpa [pass, ← hp] using hf)]

/-- The answer to a TICK whose update rule ends in the state `v` and requests the stage `t` there, constructed as
`pend` from the current stage data as the rule left it (R181, R183). -/
theorem exec_tick_of_request (hp : s.port = .F) (hi : s.inited = true) {dt : Q16} (h0 : 0 ≤ numOf dt) {v : State}
    {fires k : Bool} {t : Stage} (body : s.tick (numOf dt) = v.request fires t k)
    (pass : k = true ∨ v.cur.tag.num < t.num) {p : Prop} [Decidable p] (trigger : fires = true ↔ p)
    {pend : StageData} (made : p → mkStage s.cfg v.cur t = pend) :
    exec (.tick dt) s = .next
      (if p then { v with pend := pend, pendValid := true }.respond .ok .none else v.respond .ok .none) := by
  have cfg : v.cfg = s.cfg := (congrArg State.cfg body).symm.trans (s.tick_cfg _)
  rw [exec_tick hp hi h0, body, State.request_of_passes pass trigger]
  split
  · rw [State.setPending, cfg, made ‹_›]
  · rfl

/-! ### The stages requested, and the collision -/

/-- The particle of Starting stands at 0 and does not move yet (R181). -/
theorem mkStage_starting (c : Cfg) (d : StageData) :
    mkStage c d .starting = .starting ⟨0, 0, 0, c.startAccel, c.startTargetSpeed⟩ := by
  rw [mkStage, startPos0, norm360_of_mem le_rfl (by norm_num), startSpeed0]

/-- Both particles of a Windup entered from Idle stand where Idle's particle is, the second at half its speed
(R181, R182). -/
theorem mkStage_windup_of_idle (c : Cfg) {d : IdleData} (h : norm360 d.particlePosition = d.particlePosition) :
    mkStage c (.idle d) .windup =
      .windup ⟨0, d.particlePosition, d.particleSpeed, d.particlePosition, d.particleSpeed / 2, c.windupAccel,
        c.windupTargetSpeed⟩ := by
  simp only [mkStage, carry, windupP2Offset, add_zero, h, secondSpeedDivisor]

/-- The collision trigger is the conjunction of R166. -/
theorem collision_iff (d : WindupData) :
    collision d = true ↔ d.secondParticleSpeed = d.targetSpeed ∧
      d.firstParticlePosition - d.secondParticlePosition < 5 ∧ inCollisionZone d.firstParticlePosition := by
  unfold collision gap gapLimit
  rw [Bool.and_eq_true, Bool.and_eq_true, decide_eq_true_iff, decide_eq_true_iff, decide_eq_true_iff, and_assoc]

/-! ### The statements -/

/-- Settles O31: Dark ends as the swap and the timer leave it; its request needs AUTO_RESET and a time past. -/
theorem tickInDark : Obligations.TickInDark := by
  rintro s _ dt d hp hi h0 hc rfl
  exact exec_tick_of_request hp hi h0 (State.tick_in_dark hc _) (.inr (Nat.lt_succ_self _)) (by simp [autoReset])
    fun _ => mkStage_starting _ _

/-- Settles O32: where the unclamped sum is past the target, the clamped speed that Idle carries is the target. -/
theorem tickInStarting : Obligations.TickInStarting := by
  rintro s _ _ dt d new sum hp hi h0 hc hnew hsum rfl rfl
  refine exec_tick_of_request hp hi h0 (State.tick_in_starting hc _ hnew hsum) (.inr (Nat.lt_succ_self _))
    decide_eq_true_iff fun past => ?_
  simp only [mkStage, carry, min_eq_right past.le]

/-- Settles O33: Windup carries the position just computed, which is normalised already, and the speed. -/
theorem tickInIdle : Obligations.TickInIdle := by
  rintro s _ _ dt d new hp hi h0 hc hnew rfl rfl
  exact exec_tick_of_request hp hi h0 (State.tick_in_idle hc _ hnew) (.inr (Nat.lt_succ_self _)) (by simp [autoAdvance])
    fun _ => mkStage_windup_of_idle _ (by simp [hnew])

/-- Settles O35: the ratio that is stored and drawn is the clamped one, the trigger tests the sum. -/
theorem tickInExplosion : Obligations.TickInExplosion := by
  rintro s _ _ dt d sum ratio hp hi h0 hc hsum hratio rfl rfl
  exact exec_tick_of_request hp hi h0 (State.tick_in_explosion hc _ hsum hratio) (.inr (Nat.lt_succ_self _))
    decide_eq_true_iff fun _ => rfl

/-- Settles O36: the request for Dark is forced, so the guard lets it pass. -/
theorem tickInFade : Obligations.TickInFade := by
  rintro s _ _ dt d hp hi h0 hc rfl rfl
  exact exec_tick_of_request hp hi h0 (State.tick_in_fade hc _) (.inl rfl) decide_eq_true_iff fun _ => rfl

/-- Settles O34: a collision of the values just computed makes the one request of Windup, which then draws no arc. -/
theorem tickInWindup : Obligations.TickInWindup := by
  rintro s u v dt d p1 p2 s1 s2 hp hi h0 hc rfl rfl rfl rfl rfl hv
  have body := State.tick_in_windup hc (numOf dt) rfl hv
  split
  · next hit =>
    rw [if_pos ((collision_iff _).mpr hit)] at body
    have pass : false = true ∨ v.cur.tag.num < Stage.explosion.num := .inr (hv ▸ Nat.lt_succ_self _)
    have answer := exec_tick_of_request hp hi h0 body pass (iff_of_true rfl trivial)
      (pend := .explosion ⟨0, 0, s.cfg.fillRate⟩) fun _ => rfl
    rwa [if_pos trivial] at answer
  · next miss =>
    rw [if_neg (mt (collision_iff _).mp miss)] at body
    rw [exec_tick hp hi h0, body]
    rfl

end Sys2Proof.Machine
end

section
/-! PROOFS. Speeds and ratios after a TICK (R168, R172). -/

namespace Sys2Proof.Machine

variable {s : State}

/-- A TICK ends in the stage data that its swap took, updated (R159): the variant is the same. -/
theorem State.swap_cur_tag_of_tick {dt : ℚ} {c : StageData} (h : (s.tick dt).cur = c) : s.swap.cur.tag = c.tag := by
  rw [← h, State.tick, State.update_cur_tag, State.advanceTime_cur, StageData.tag_age]

/-- The fill ratio after a TICK: clamped to `[0, 1]` (R168). -/
theorem State.fillRatio_tick {d d' : ExplosionData} {dt : ℚ} (h : s.swap.cur = .explosion d)
    (h' : (s.tick dt).cur = .explosion d') : d'.fillRatio = min (max (d.fillRatio + d.fillRate * dt) 0) 1 := by
  rw [State.tick_in_explosion h dt rfl rfl, State.request_cur] at h'
  cases h'
  rfl

/-- Starting's speed after a TICK does not exceed its target (R162). -/
theorem State.particleSpeed_tick_le {d : StartingData} {dt : ℚ} (h : (s.tick dt).cur = .starting d) :
    d.particleSpeed ≤ d.targetSpeed := by
  have tag := State.swap_cur_tag_of_tick h
  cases hc : s.swap.cur <;> rw [hc] at tag
  case starting d0 =>
    rw [State.tick_in_starting hc dt rfl rfl, State.request_cur] at h
    cases h
    exact min_le_right _ _
  all_goals cases tag

/-- Neither of Windup's speeds after a TICK exceeds the target (R165). -/
theorem State.particleSpeeds_tick_le {d : WindupData} {dt : ℚ} (h : (s.tick dt).cur = .windup d) :
    d.firstParticleSpeed ≤ d.targetSpeed ∧ d.secondParticleSpeed ≤ d.targetSpeed := by
  have tag := State.swap_cur_tag_of_tick h
  cases hc : s.swap.cur <;> rw [hc] at tag
  case windup d0 =>
    rw [State.tick_in_windup hc dt rfl rfl, apply_ite State.cur, State.request_cur, State.drawArc_cur,
      State.drawArc_cur, ite_self] at h
    cases h
    exact ⟨min_le_right _ _, min_le_right _ _⟩
  all_goals cases tag

/-- Settles O39: both speeds and the ratio are stored clamped; a rate that is not negative raises the sum over the old
ratio, and a negative one takes 0 below 0, where the clamp brings it back. -/
theorem tickKeepsSpeedsAndRatiosInBounds : Obligations.TickKeepsSpeedsAndRatiosInBounds := by
  intro s t dt hp hi h0 ht
  rw [exec_tick hp hi h0] at ht
  cases ht
  refine ⟨fun _ => State.particleSpeed_tick_le, fun _ => State.particleSpeeds_tick_le, fun d d' h h' hle => ?_⟩
  rw [State.fillRatio_tick h h']
  refine ⟨min_le_right _ _, le_min (le_max_right _ _) zero_le_one, fun hrate => ?_, fun hrate hzero => ?_⟩
  · have step : 0 ≤ d.fillRate * numOf dt := mul_nonneg hrate h0
    exact le_min (le_max_of_le_left (le_add_of_nonneg_right step)) hle
  · have step : d.fillRate * numOf dt ≤ 0 := mul_nonpos_of_nonpos_of_nonneg hrate.le h0
    rw [hzero, zero_add, max_eq_right step, min_eq_left zero_le_one]

end Sys2Proof.Machine
end

section
/-! PROOFS. ADVANCE (R180, R256), and the control lines (R186 to R188). -/

namespace Sys2Proof.Machine

/-! ### ADVANCE -/

/-- ADVANCE with a sound flag refuses a number that names no stage (R180). -/
theorem exec_advance_of_gt {s : State} (hi : s.inited = true) {target force : Byte} {k : Bool} (ht : 5 < target.toNat)
    (hk : isFlag force k) :
    exec (.advance target force) s = .next (s.raise ⟨.range, some ⟨.range, target.toNat, s.cur.tag.num⟩⟩) := by
  have noStage : Stage.ofNum target.toNat = none := by
    rcases Stage.ofNum_cases target.toNat with ⟨t, h, -⟩ | ⟨-, e⟩
    · have : t.num ≤ 5 := by cases t <;> decide
      omega
    · exact e
  have admitted : ∀ r, s.permit true false r = r := fun r => State.permit_pass (fun _ => rfl) (by simp [hi])
  rcases hk with ⟨rfl, -⟩ | ⟨rfl, -⟩ <;> simp [exec, execAdvance, admitted, noStage]

/-- The guard rejects a request that is not forced, not for a later stage, and not allowed to go lower (R180). -/
theorem State.guardRejects_iff (s : State) (t : Stage) (k : Bool) :
    s.guardRejects t k = true ↔ k = false ∧ t.num ≤ s.cur.tag.num ∧ s.cfg.flags.getLsbD 2 = false := by
  simp [State.guardRejects, allowLower, and_assoc]

/-- Settles O40: a number above 5 names no stage; for any other the guard is that of `guardRejects_iff`. -/
theorem advanceGuardsThenMakesPending : Obligations.AdvanceGuardsThenMakesPending := by
  refine ⟨fun _ _ _ => rfl, fun s target force v hi hv => ⟨fun h => exec_advance_of_gt hi h hv, fun t ht => ?_⟩⟩
  rw [exec_advance hi ht hv, ht]
  exact if_congr (s.guardRejects_iff t v) rfl rfl

/-! ### The control lines -/

variable {cw : ChannelWidth} {status : BitVec 32} {n : Nat}

/-- A number above 5 names no stage, so the line issues nothing (R186). -/
theorem controlCommands_advanceStage_of_gt (h : 5 < n) : controlCommands cw status (.advanceStage n) = [] := if_pos h

/-- A number above 5 names no stage, so the line issues nothing (R187). -/
theorem controlCommands_advanceStagePulsing_of_gt (h : 5 < n) :
    controlCommands cw status (.advanceStagePulsing n) = [] :=
  if_pos h

/-- `AdvanceStage` reads the status first and gives no ADVANCE while the block is pulsing (R186). -/
theorem controlCommands_advanceStage (h : n ≤ 5) : controlCommands cw status (.advanceStage n) =
    if status.getLsbD 7 then [.rdstat] else [.rdstat, .advance (BitVec.ofNat 8 n) 0x00#8] :=
  if_neg (not_lt.mpr h)

/-- `AdvanceStagePulsing` turns the pulse on before it advances (R187). -/
theorem controlCommands_advanceStagePulsing (h : n ≤ 5) : controlCommands cw status (.advanceStagePulsing n) =
    [.setpulse 0x01#8, .advance (BitVec.ofNat 8 n) 0x00#8] :=
  if_neg (not_lt.mpr h)

/-- Every command a line becomes is one that a frame can carry: only SETPAL has colours, and its palette fits. -/
theorem wf_of_mem_controlCommands (line : ControlLine) : ∀ i ∈ controlCommands cw status line, i.wf cw = true := by
  cases line with
  | advanceStage n =>
    rcases Nat.lt_or_ge 5 n with h | h
    · rw [controlCommands_advanceStage_of_gt h]
      exact List.forall_mem_nil _
    · rw [controlCommands_advanceStage h]
      split
      · exact List.forall_mem_singleton.mpr rfl
      · exact List.forall_mem_cons.mpr ⟨rfl, List.forall_mem_singleton.mpr rfl⟩
  | advanceStagePulsing n =>
    rcases Nat.lt_or_ge 5 n with h | h
    · rw [controlCommands_advanceStagePulsing_of_gt h]
      exact List.forall_mem_nil _
    · rw [controlCommands_advanceStagePulsing h]
      exact List.forall_mem_cons.mpr ⟨rfl, List.forall_mem_singleton.mpr rfl⟩
  | palette p =>
    change ∀ i ∈ paletteCommands cw p, _
    rcases paletteCommands_cases cw p with ⟨hp, e⟩ | ⟨-, e | ⟨q, hq, e⟩⟩ <;> rw [e]
    · exact List.forall_mem_singleton.mpr ((setpalOf_wf cw p).mpr hp)
    · exact List.forall_mem_nil _
    · exact List.forall_mem_singleton.mpr ((setpalOf_wf cw q).mpr hq)
  | unrecognized => exact List.forall_mem_nil _

/-- Settles O60: the lines that name a stage by their number, the palette lines by `paletteCommands_cases`. -/
theorem controlLinesBecomeCommands : Obligations.ControlLinesBecomeCommands := by
  intro cw status n p line
  refine ⟨fun h => ⟨controlCommands_advanceStage_of_gt h, controlCommands_advanceStagePulsing_of_gt h⟩, fun h hs => ?_,
    fun h hs => ?_, controlCommands_advanceStagePulsing, rfl, fun hp => if_pos hp, fun hp => ?_,
    wf_of_mem_controlCommands line⟩
  · rw [controlCommands_advanceStage h, hs]
    rfl
  · rw [controlCommands_advanceStage h, hs]
    rfl
  · rcases paletteCommands_cases cw p with ⟨hf, -⟩ | ⟨-, e⟩
    · exact absurd hf hp
    · exact e

end Sys2Proof.Machine
end

section
/-! PROOFS. The packet of a segment byte by byte (R200 to R211), and the commands ENCODE (R210, R213) and RDPKT
(R215). -/

namespace Sys2Proof.Machine

/-! ### The bytes of a segment's packet -/

section Layout

variable {b : Build} {ring : Memory Color} {start m pad j o : Nat} {forward : Bool} {uni net : Byte}

/-- Narrowing keeps the low byte (R207). -/
theorem narrow_eq_ofNat (v : Nat) : narrow v = BitVec.ofNat 8 v :=
  BitVec.eq_of_toNat_eq (by simp [narrow])

/-- The direction of a segment is the sign of its count (R211). -/
theorem segmentPixel_decide (start m j : Nat) (p : Prop) [Decidable p] :
    segmentPixel start m (decide p) j = if p then start + j else start + (m - 1) - j := by
  simp [segmentPixel]

/-- The first pixel of a segment is also its last if there is no other (R213). -/
theorem segmentPixel_one (start : Nat) (forward : Bool) : segmentPixel start 1 forward 0 = start := by
  cases forward <;> rfl

/-- The first 18 bytes are the header (R201). -/
theorem segmentByte_header (h : o < 18) : segmentByte b ring start m forward pad uni net o = headerByte b uni net o :=
  if_pos h

/-- The four bytes of slot `pad + j` are the channels of the segment's pixel `j` (R205, R210). -/
theorem segmentByte_channel (hj : j < m) {channel : Nat} (hc : channel < 4) :
    segmentByte b ring start m forward pad uni net (18 + 4 * (pad + j) + channel) =
      channelByte (Memory.read Color.black ring (segmentPixel start m forward j)) channel := by
  have data : ¬ 18 + 4 * (pad + j) + channel < 18 := by omega
  have slot : (18 + 4 * (pad + j) + channel - 18) / 4 = pad + j := by omega
  have within : (18 + 4 * (pad + j) + channel - 18) % 4 = channel := by omega
  have inside : pad ≤ pad + j ∧ pad + j < pad + m := by omega
  simp only [segmentByte, if_neg data, slot, within, if_pos inside, Nat.add_sub_cancel_left]

/-- The slots before and after the segment stay zero (R205). -/
theorem segmentByte_outside (hd : 18 ≤ o) (h : o < 18 + 4 * pad ∨ 18 + 4 * (pad + m) ≤ o) :
    segmentByte b ring start m forward pad uni net o = 0x00#8 := by
  have outside : ¬ (pad ≤ (o - 18) / 4 ∧ (o - 18) / 4 < pad + m) := by omega
  simp only [segmentByte, if_neg (not_lt.mpr hd), if_neg outside]

/-- The bytes of a segment of one pixel do not depend on its direction (R213). -/
theorem segmentByte_one (b : Build) (ring : Memory Color) (start : Nat) (forward : Bool) (pad : Nat) (uni net : Byte) :
    segmentByte b ring start 1 forward pad uni net = segmentByte b ring start 1 true pad uni net := by
  funext o
  rcases lt_or_ge o 18 with header | data
  · rw [segmentByte_header header, segmentByte_header header]
  · rcases lt_or_ge o (18 + 4 * pad) with before | notBefore
    · rw [segmentByte_outside data (.inl before), segmentByte_outside data (.inl before)]
    · rcases lt_or_ge o (18 + 4 * (pad + 1)) with pixel | after
      · obtain ⟨channel, rfl⟩ := Nat.exists_eq_add_of_le notBefore
        have hc : channel < 4 := by omega
        have first : ∀ f, segmentByte b ring start 1 f pad uni net (18 + 4 * pad + channel) =
            channelByte (Memory.read Color.black ring start) channel := fun f =>
          (segmentByte_channel (j := 0) Nat.one_pos hc).trans (by rw [segmentPixel_one])
        rw [first, first]
      · rw [segmentByte_outside data (.inr after), segmentByte_outside data (.inr after)]

end Layout

/-! ### ENCODE -/

section Encode

variable {s : State} {k start m : Nat} {forward : Bool} {pad uni net : Byte}

/-- What ENCODE leaves: the packet of a segment of ring `k` (R210). -/
def State.withSegment (s : State) (start m : Nat) (forward : Bool) (pad uni net : Byte) (k : Nat) : State :=
  { s with
    pkt := Memory.tabulate 0#8 packetLength (segmentByte s.build (s.ring k) start m forward pad.toNat uni net) }

/-- The body of ENCODE behind the check of its ring: the bounds of the segment, then its packet (R210). -/
def State.encodeSegment (s : State) (start m : Nat) (forward : Bool) (pad uni net : Byte) (k : Nat) : CmdResult :=
  if s.ringSize k < start + m then refuse .range
  else if packetSlots < pad.toNat + m then refuse .range
  else done (s.withSegment start m forward pad uni net k)

/-- ENCODE is this body behind the common checks and the check of its ring (R96, R210, R258). -/
theorem exec_encode (s : State) (ring : Byte) (start count : BitVec 16) (pad uni net : Byte) :
    exec (.encode ring start count pad uni net) s = s.finish (s.permit false false (s.withRing ring
      (s.encodeSegment start.toNat count.toInt.natAbs (decide (0 < count.toInt)) pad uni net))) :=
  rfl

theorem State.encodeSegment_pass (hs : start + m ≤ s.ringSize k) (hp : pad.toNat + m ≤ packetSlots) :
    s.encodeSegment start m forward pad uni net k = done (s.withSegment start m forward pad uni net k) := by
  rw [State.encodeSegment, if_neg (not_lt.mpr hs), if_neg (not_lt.mpr hp)]

theorem State.encodeSegment_refuse (h : s.ringSize k < start + m ∨ packetSlots < pad.toNat + m) :
    s.encodeSegment start m forward pad uni net k = refuse .range := by
  rcases lt_or_ge (s.ringSize k) (start + m) with hs | hs
  · exact if_pos hs
  · rw [State.encodeSegment, if_neg (not_lt.mpr hs), if_pos (h.resolve_left (not_lt.mpr hs))]

/-- A byte of the packet that ENCODE leaves (R200, R210). -/
theorem State.packetByte_withSegment {o : Nat} (h : o < packetLength) :
    (s.withSegment start m forward pad uni net k).packetByte o =
      segmentByte s.build (s.ring k) start m forward pad.toNat uni net o := by
  rw [State.packetByte, State.withSegment, Memory.read_tabulate, if_pos h]

theorem State.packetByte_withSegment_header {o : Nat} (h : o < 18) :
    (s.withSegment start m forward pad uni net k).packetByte o = headerByte s.build uni net o :=
  (State.packetByte_withSegment (h.trans (by decide))).trans (segmentByte_header h)

theorem State.packetByte_withSegment_channel {j : Nat} (hp : pad.toNat + m ≤ packetSlots) (hj : j < m) {channel : Nat}
    (hc : channel < 4) :
    (s.withSegment start m forward pad uni net k).packetByte (18 + 4 * (pad.toNat + j) + channel) =
      channelByte (s.pixel k (segmentPixel start m forward j)) channel := by
  have inPacket : 18 + 4 * (pad.toNat + j) + channel < packetLength := by
    unfold packetSlots at hp
    unfold packetLength
    omega
  exact (State.packetByte_withSegment inPacket).trans (segmentByte_channel hj hc)

/-- ENCODE of a segment within its ring and the packet leaves its packet (R210). -/
theorem exec_encode_pass (hp : s.port = .F) (hi : s.inited = true) {ring : Byte} {start count : BitVec 16}
    (hr : ring.toNat < s.nringsL) (hs : start.toNat + count.toInt.natAbs ≤ s.ringSize ring.toNat)
    (hslots : pad.toNat + count.toInt.natAbs ≤ packetSlots) :
    exec (.encode ring start count pad uni net) s = .next ((s.withSegment start.toNat count.toInt.natAbs
      (decide (0 < count.toInt)) pad uni net ring.toNat).respond .ok .none) := by
  rw [exec_encode, State.permit_portF hp hi, State.withRing_pass hr, State.encodeSegment_pass hs hslots,
    State.finish_done]

/-- ENCODE of a segment out of bounds is refused (R210). -/
theorem exec_encode_refuse (hp : s.port = .F) (hi : s.inited = true) {ring : Byte} {start count : BitVec 16}
    (h : s.nringsL ≤ ring.toNat ∨ s.ringSize ring.toNat < start.toNat + count.toInt.natAbs ∨
      packetSlots < pad.toNat + count.toInt.natAbs) :
    exec (.encode ring start count pad uni net) s = .next (s.raise ⟨.range, none⟩) := by
  rw [exec_encode, State.permit_portF hp hi]
  rcases lt_or_ge ring.toNat s.nringsL with hr | hr
  · rw [State.withRing_pass hr, State.encodeSegment_refuse (h.resolve_left (not_le.mpr hr)), State.finish_refuse]
  · rw [State.withRing_refuse hr, State.finish_refuse]

end Encode

/-- Settles O45: the packet is read in its three parts, the header, the slots of the segment and the slots outside. -/
theorem encodeBuildsThePacket : Obligations.EncodeBuildsThePacket := by
  refine ⟨fun _ _ _ _ _ _ _ => rfl, ?_⟩
  rintro s ring start count pad uni net m hp hi rfl
  refine ⟨exec_encode_refuse hp hi, fun hr hs hslots => ?_⟩
  have run := exec_encode_pass (pad := pad) (uni := uni) (net := net) hp hi hr hs hslots
  obtain ⟨u, hu⟩ : ∃ u, u = s.withSegment start.toNat count.toInt.natAbs (decide (0 < count.toInt)) pad uni net
    ring.toNat := ⟨_, rfl⟩
  rw [← hu] at run
  have header : ∀ o < 18, u.packetByte o = headerByte s.build uni net o := fun o ho => by
    rw [hu, State.packetByte_withSegment_header ho]
  refine ⟨_, u, hu, run, fun o ho => ?_, header 8 (by decide), header 9 (by decide), header 10 (by decide),
    header 11 (by decide), header 12 (by decide), header 13 (by decide), header 14 (by decide), header 15 (by decide),
    header 16 (by decide), header 17 (by decide), fun j hj => ?_, fun o hd hl outside => ?_⟩
  · exact (header o (by omega)).trans (if_pos ho)
  · have channel : ∀ ch < 4, u.packetByte (18 + 4 * (pad.toNat + j) + ch) = channelByte (s.pixel ring.toNat
        (if 0 < count.toInt then start.toNat + j else start.toNat + (count.toInt.natAbs - 1) - j)) ch := fun ch hc => by
      rw [hu, State.packetByte_withSegment_channel hslots hj hc, segmentPixel_decide]
    simp only [channelByte, narrow_eq_ofNat] at channel
    exact ⟨channel 0 (by decide), channel 1 (by decide), channel 2 (by decide), channel 3 (by decide)⟩
  · rw [hu, State.packetByte_withSegment hl]
    exact segmentByte_outside hd outside

/-- The packet of a segment of one pixel has no direction (R213). -/
theorem State.encodeSegment_one (s : State) (start : Nat) (forward : Bool) (pad uni net : Byte) :
    s.encodeSegment start 1 forward pad uni net = s.encodeSegment start 1 true pad uni net := by
  funext k
  simp only [State.encodeSegment, State.withSegment, segmentByte_one _ _ _ forward]

/-- Settles O46: the counts 1 and -1 differ in the direction only. -/
theorem singlePixelSegmentHasNoDirection : Obligations.SinglePixelSegmentHasNoDirection := by
  intro s ring start pad uni net
  have forward : (1#16).toInt = 1 := by decide
  have backward : (0xFFFF#16).toInt = -1 := by decide
  rw [exec_encode, exec_encode, forward, backward]
  exact congrArg (fun body => s.finish (s.permit false false (s.withRing ring body)))
    (s.encodeSegment_one start.toNat false pad uni net).symm

/-! ### RDPKT -/

/-- RDPKT is checked by its offset alone on port F of an initialised block (R215, R258). -/
theorem exec_rdpkt_eq {s : State} (hp : s.port = .F) (hi : s.inited = true) (off : BitVec 16) :
    exec (.rdpkt off) s =
      s.finish (if packetLength ≤ off.toNat then refuse .range else .ok (s, .u8 (s.packetByte off.toNat))) :=
  congrArg s.finish (State.permit_portF hp hi false false _)

/-- Settles O47: an offset beyond the packet is refused; any other is answered with its byte. -/
theorem rdpktAnswersTheByte : Obligations.RdpktAnswersTheByte := by
  intro s off hp hi
  rw [exec_rdpkt_eq hp hi]
  refine ⟨fun (beyond : packetLength ≤ off.toNat) => ?_, fun (inside : off.toNat < packetLength) => ?_⟩
  · rw [if_pos beyond, State.finish_refuse]
  · rw [if_neg (not_le.mpr inside), State.finish_ok]

end Sys2Proof.Machine
end

section
/-! PROOFS. NOP and INIT (R231, R233). -/

namespace Sys2Proof.Machine

/-! ### NOP -/

/-- NOP passes the common checks everywhere and has no check of its own (R231, R258). -/
theorem exec_nop (s : State) : exec .nop s = .next (s.respond .ok .none) :=
  congrArg s.finish (s.permit_always _)

/-- Settles O48: the answer of NOP is the byte of `OK` alone. -/
theorem nopAnswersOk : Obligations.NopAnswersOk :=
  ⟨fun _ => rfl, exec_nop⟩

/-! ### INIT -/

variable {s : State}

/-- INIT is checked by `INITED` alone on port F (R233, R258). -/
theorem exec_init_eq (hp : s.port = .F) :
    exec .init s = s.finish (if s.inited then refuse .badState else done s.initialise) :=
  congrArg s.finish (s.permit_before_init hp false _)

/-- INIT of a block that is initialised is refused (R233). -/
theorem exec_init_again (hp : s.port = .F) (hi : s.inited = true) :
    exec .init s = .next (s.raise ⟨.badState, none⟩) := by
  rw [exec_init_eq hp, if_pos hi, State.finish_refuse]

/-- INIT of a block that is not initialised is carried out (R233). -/
theorem exec_init (hp : s.port = .F) (hi : s.inited = false) :
    exec .init s = .next (s.initialise.respond .ok .none) := by
  rw [exec_init_eq hp, if_neg (Bool.eq_false_iff.mp hi), State.finish_done]

/-- INIT leaves the rings that CLEAR leaves under the layout it latches, so every pixel of them is black (R233). -/
theorem State.pixel_initialise (k i : Nat) (hk : k < s.cfg.nrings) : s.initialise.pixel k i = Color.black :=
  State.pixel_drawClear (s := { s with nringsL := s.cfg.nrings, n0L := s.cfg.n0, n1L := s.cfg.n1 }) k i hk

/-- INIT leaves a packet of zero bytes (R233). -/
theorem State.packetByte_initialise (s : State) (o : Nat) : s.initialise.packetByte o = 0x00#8 := by
  rw [State.packetByte, State.initialise, Memory.read_tabulate, ite_self]

/-- Settles O49: INIT leaves `State.initialise`, whose rings and packet read as zero. -/
theorem initEntersTheInitialState : Obligations.InitEntersTheInitialState := by
  refine ⟨fun _ => rfl, fun s hp => ⟨exec_init_again hp, fun hi => ?_⟩⟩
  exact ⟨_, _, _, s.initialise, rfl, exec_init hp hi, fun k i hk _ => State.pixel_initialise k i hk,
    fun o _ => s.packetByte_initialise o⟩

end Sys2Proof.Machine
end

section
/-! PROOFS. Nothing stops the block (R74, R257), and what the common checks refuse (R253, R254, R258). -/

namespace Sys2Proof.Machine

variable {s t : State} {i : Instr}

/-! ### The common checks of every command -/

/-- Every command stands behind the checks of R258, with the port and the state that R262 and R253 list for it. -/
theorem exec_eq_permit (i : Instr) (s : State) :
    ∃ r, exec i s = s.finish (s.permit (acceptedOnPortC i) (acceptedBeforeInit i) r) := by
  cases i
  all_goals exact ⟨_, rfl⟩

/-- A port that does not accept the command refuses it, whatever the state (R254, R258). -/
theorem exec_of_wrong_port (hp : s.port = .C) (hc : acceptedOnPortC i = false) :
    exec i s = .next (s.raise ⟨.badPort, none⟩) := by
  obtain ⟨r, hr⟩ := exec_eq_permit i s
  rw [hr, State.permit, if_pos ⟨hp, hc⟩, State.finish_refuse]

/-- Before INIT a command that needs it is refused on a port that accepts it (R253, R258). -/
theorem exec_of_wrong_state (hp : s.port = .C → acceptedOnPortC i = true) (hi : s.inited = false)
    (hb : acceptedBeforeInit i = false) : exec i s = .next (s.raise ⟨.badState, none⟩) := by
  have port : ¬ (s.port = .C ∧ acceptedOnPortC i = false) := fun h => by simp [hp h.1] at h
  obtain ⟨r, hr⟩ := exec_eq_permit i s
  rw [hr, State.permit, if_neg port, if_pos ⟨hi, hb⟩, State.finish_refuse]

/-- Where the port served accepts a command that port C does not accept, it is port F (R262). -/
theorem State.portF_of_accepted (hp : s.port = .C → acceptedOnPortC i = true) (hc : acceptedOnPortC i = false) :
    s.port = .F := by
  cases h : s.port
  · rfl
  · simp [hp h] at hc

/-! ### Every step answers -/

/-- Every command ends in a next state, which keeps the build (R257, R291). -/
theorem exec_ends (i : Instr) (s : State) : ∃ t, exec i s = .next t ∧ t.build = s.build := by
  obtain ⟨r, hr⟩ := exec_eq_permit i s
  obtain ⟨t, ht⟩ := s.finish_ends (s.permit (acceptedOnPortC i) (acceptedBeforeInit i) r)
  have next : exec i s = .next t := hr.trans ht
  obtain ⟨-, -, -, -, -, -, -, -, -, -, build, -⟩ := stateIsWrittenOnlyByItsWriters i s t next
  exact ⟨t, next, build⟩

/-- Settles O12: each of the four things a step can do is a next state of the same build. -/
theorem everyStepAnswersANextState : Obligations.EveryStepAnswersANextState := by
  intro s
  rcases step_cases s with ⟨-, e⟩ | ⟨-, -, -, e⟩ | ⟨p, f, -, -, ⟨i, -, e⟩ | ⟨-, e⟩⟩ <;> rw [e]
  · exact ⟨_, rfl, rfl⟩
  · exact ⟨_, rfl, rfl⟩
  · exact exec_ends i (s.takeFrame p)
  · exact ⟨_, rfl, rfl⟩

end Sys2Proof.Machine
end

section
/-! PROOFS. The causes of every refusal (R253, R254, R255). -/

namespace Sys2Proof.Machine

/-! ### What a refusal says -/

/-- The causes of `BADSTATE` (R253). -/
def State.WrongState (s : State) (i : Instr) : Prop :=
  (s.inited = false ∧ acceptedBeforeInit i = false) ∨ (s.inited = true ∧ i = .init) ∨
    (s.inited = true ∧ ∃ r v, i = .cfgwr r v ∧ r.toNat ≤ 2)

/-- `s.Refuses i e`: refusal `e` of command `i` has its cause in `s`. One constructor per code a command can raise
(R180, R253, R254, R255). -/
inductive State.Refuses (s : State) (i : Instr) : Raised → Prop
  | badPort (hp : s.port = .C) (hc : acceptedOnPortC i = false) : s.Refuses i ⟨.badPort, none⟩
  | badState (cause : s.WrongState i) : s.Refuses i ⟨.badState, none⟩
  | range (cause : rangeCause s i) : s.Refuses i ⟨.range, rangeEvent s i⟩
  | rejected (event : LogEvent) (sound : ¬ rangeCause s i) : s.Refuses i ⟨.rejected, some event⟩

/-! ### Bodies by the cause of what they refuse -/

/-- A body is refused for a cause, or its operands have no cause of `RANGE` and it leaves the sticky bits. -/
def CmdResult.Explained (s : State) (i : Instr) : CmdResult → Prop
  | .ok (u, _) => u.sticky = s.sticky ∧ ¬ rangeCause s i
  | .error e => s.Refuses i e

section Bodies

variable {s : State} {i : Instr} {r : CmdResult}

theorem CmdResult.explained_ok {u : State} {x : Result} (hs : u.sticky = s.sticky) (hc : ¬ rangeCause s i) :
    CmdResult.Explained s i (.ok (u, x)) :=
  ⟨hs, hc⟩

theorem CmdResult.explained_range {e : Option LogEvent} (he : rangeEvent s i = e) (hc : rangeCause s i) :
    CmdResult.Explained s i (.error ⟨.range, e⟩) :=
  he ▸ .range hc

theorem CmdResult.explained_unless {c : Prop} [Decidable c] (he : rangeEvent s i = none) (hc : c → rangeCause s i)
    (h : ¬ c → r.Explained s i) : CmdResult.Explained s i (if c then refuse .range else r) :=
  iteInduction (fun hr => explained_range he (hc hr)) h

/-- A flag operand that is refused for a cause of the command (R84). -/
theorem CmdResult.explained_withFlag {b : Byte} {f : Bool → CmdResult}
    (refused : b ≠ 0x00#8 → b ≠ 0x01#8 → rangeEvent s i = none ∧ rangeCause s i)
    (h : (b = 0x00#8 ∨ b = 0x01#8) → ∀ k, (f k).Explained s i) : (withFlag b f).Explained s i := by
  rcases withFlag_cases b f with ⟨hb, e⟩ | ⟨hb, e⟩ | ⟨h0, h1, e⟩ <;> rw [e]
  · exact h (.inl hb) _
  · exact h (.inr hb) _
  · obtain ⟨event, cause⟩ := refused h0 h1
    exact explained_range event cause

theorem CmdResult.Explained.permit (h : r.Explained s i) :
    (s.permit (acceptedOnPortC i) (acceptedBeforeInit i) r).Explained s i := by
  rcases s.permit_cases (acceptedOnPortC i) (acceptedBeforeInit i) r with
    ⟨hp, hc, e⟩ | ⟨-, hi, hb, e⟩ | ⟨-, -, e⟩ <;> rw [e]
  · exact .badPort hp hc
  · exact .badState (.inl ⟨hi, hb⟩)
  · exact h

end Bodies

/-! ### The causes of `RANGE` of CFGWR -/

/-- A write to a register has a cause of `RANGE` exactly when the value may not be written to it (R41, R255). -/
theorem rangeCause_cfgwr_number (s : State) (r : CfgReg) (v : BitVec 32) :
    rangeCause s (.cfgwr r.number v) ↔ legalValue s.build.nmax v r = false := by
  cases r
  case n0 | n1 =>
    simp [rangeCause, CfgReg.number, legalValue]
    omega
  all_goals simp [rangeCause, CfgReg.number, legalValue]

/-! ### Every refusal has its cause -/

open CmdResult in
/-- A command ends in a body whose refusals are for their causes (R253, R254, R255). -/
theorem exec_eq_finish_explained (i : Instr) (s : State) : ∃ r, exec i s = s.finish r ∧ r.Explained s i := by
  cases i <;> refine ⟨_, rfl, Explained.permit ?_⟩
  case nop | clear | decay | setpal | rdstat => exact explained_ok rfl id
  case fill | rdpkt => exact explained_unless rfl id fun h => explained_ok rfl h
  case tick => exact explained_unless rfl id fun h => explained_ok (s.tick_sticky _) h
  case a2l => exact explained_unless rfl id fun h => explained_ok rfl h
  case arc | setpulse =>
    exact explained_withFlag (fun h0 h1 => ⟨rfl, h0, h1⟩) fun hb _ =>
      explained_ok rfl fun ⟨h0, h1⟩ => hb.elim h0 h1
  case rdpix | wrpix =>
    exact explained_unless rfl .inl fun hr => explained_unless rfl .inr fun hx => explained_ok rfl (not_or_intro hr hx)
  case encode =>
    exact explained_unless rfl .inl fun hr => explained_unless rfl (.inr ∘ .inl) fun hs =>
      explained_unless rfl (.inr ∘ .inr) fun hp => explained_ok rfl (not_or_intro hr (not_or_intro hs hp))
  case init =>
    exact iteInduction (fun hi => .badState (.inr (.inl ⟨hi, rfl⟩))) fun _ => explained_ok rfl id
  case cfgrd reg =>
    rcases cfgRegOf_number_or_none reg with ⟨r, rfl⟩ | hn
    · have named : ¬ rangeCause s (.cfgrd r.number) := (cfgRegOf_eq_none_iff _).not.mp (by simp)
      rw [cfgRegOf_number]
      exact explained_ok rfl named
    · rw [hn]
      exact explained_range rfl ((cfgRegOf_eq_none_iff reg).mp hn)
  case cfgwr reg v =>
    rcases cfgRegOf_number_or_none reg with ⟨r, rfl⟩ | hn
    · have value := rangeCause_cfgwr_number s r v
      rw [cfgRegOf_number]
      refine iteInduction (fun ⟨hl, hi⟩ => ?_) fun _ =>
        explained_unless rfl value.mpr fun legal => explained_ok rfl (mt value.mp legal)
      exact .badState (.inr (.inr ⟨hi, _, _, rfl, r.number_le_two_iff.mpr hl⟩))
    · rw [hn]
      exact explained_range rfl (((cfgRegOf_eq_none_iff reg).mp hn).elim .inl fun h => .inr (.inl h))
  case advance target force =>
    refine explained_withFlag (fun h0 h1 => ⟨if_neg (not_or_intro h0 h1), .inl ⟨h0, h1⟩⟩) fun hb k => ?_
    rcases Stage.ofNum_cases target.toNat with ⟨t, ht, e⟩ | ⟨beyond, e⟩ <;> rw [e]
    · have sound : ¬ rangeCause s (.advance target force) := by
        rintro (⟨h0, h1⟩ | beyond)
        · exact hb.elim h0 h1
        · cases t <;> simp_all [Stage.num]
      exact iteInduction (fun _ => .rejected _ sound) fun _ => explained_ok rfl sound
    · exact explained_range (if_pos hb) (.inr beyond)

/-- A command keeps the sticky bits where no operand has a cause of `RANGE`, or it is refused for a cause (R13). -/
theorem exec_explained (i : Instr) (s : State) :
    (∃ t, exec i s = .next t ∧ t.sticky = s.sticky ∧ ¬ rangeCause s i) ∨
      ∃ e, s.Refuses i e ∧ exec i s = .next (s.raise e) := by
  obtain ⟨r, hr, explained⟩ := exec_eq_finish_explained i s
  rcases r with e | ⟨u, x⟩
  · exact .inr ⟨e, explained, hr⟩
  · exact .inl ⟨u.respond .ok x, hr, explained⟩

/-- The sticky bits of a command's next state: those there were, with the bit of a refusal that has its cause. -/
theorem exec_sticky {i : Instr} {s t : State} (ht : exec i s = .next t) :
    t.sticky = s.sticky ∨ ∃ e, s.Refuses i e ∧ t.sticky = s.sticky.set e.code := by
  rcases exec_explained i s with ⟨u, hu, sticky, -⟩ | ⟨e, refuses, hu⟩
  · cases hu.symm.trans ht
    exact .inl sticky
  · cases hu.symm.trans ht
    exact .inr ⟨e, refuses, rfl⟩

/-! ### The statements -/

/-- Settles O15: the port is the first check; a refusal with another cause sets another bit. -/
theorem wrongPortRaisesBadPort : Obligations.WrongPortRaisesBadPort := by
  refine ⟨fun _ _ => exec_of_wrong_port, fun i s t port ht => ?_, fun _ => rfl⟩
  rcases exec_sticky ht with h | ⟨e, refuses, h⟩
  · rw [h]
  · rw [h]
    cases refuses
    case badPort hp hc => simp [hp, hc] at port
    all_goals rfl

/-- Settles O16: the common checks refuse a command that comes before INIT, INIT and CFGWR one that comes after it; a
refusal with another cause sets another bit. -/
theorem wrongStateRaisesBadState : Obligations.WrongStateRaisesBadState := by
  refine ⟨fun i s port cause => ?_, fun i s t (right : ¬ s.WrongState i) ht => ?_, fun _ => rfl⟩
  · rcases cause with ⟨hi, hb⟩ | ⟨hi, rfl⟩ | ⟨hi, reg, v, rfl, hl⟩
    · exact exec_of_wrong_state port hi hb
    · exact exec_init_again (State.portF_of_accepted port rfl) hi
    · rcases cfgRegOf_number_or_none reg with ⟨r, rfl⟩ | hn
      · exact exec_cfgwr_layout (State.portF_of_accepted port rfl) v (r.number_le_two_iff.mp hl) hi
      · have := (cfgRegOf_eq_none_iff reg).mp hn
        omega
  · rcases exec_sticky ht with h | ⟨e, refuses, h⟩
    · rw [h]
    · rw [h]
      cases refuses
      case badState cause => exact absurd cause right
      all_goals rfl

/-- Settles O17: an admitted command with a cause of `RANGE` is refused, and for no other cause; without one it is not
refused with `RANGE`. -/
theorem rangeIsRaisedOnExactlyItsCauses : Obligations.RangeIsRaisedOnExactlyItsCauses := by
  refine ⟨fun i s port state layout => ⟨fun cause => ?_, fun sound t ht => ?_⟩, fun _ _ => rfl⟩
  · rcases exec_explained i s with ⟨-, -, -, sound⟩ | ⟨e, refuses, h⟩
    · exact absurd cause sound
    · cases refuses
      case range => exact h
      case rejected sound => exact absurd cause sound
      case badPort hp hc => simp [port hp] at hc
      case badState wrong =>
        rcases wrong with ⟨hi, hb⟩ | ⟨-, rfl⟩ | wrong
        · simp [state hi] at hb
        · exact cause.elim
        · exact absurd wrong layout
  · rcases exec_sticky ht with h | ⟨e, refuses, h⟩
    · rw [h]
    · rw [h]
      cases refuses
      case range cause => exact absurd cause sound
      all_goals rfl

end Sys2Proof.Machine
end

section
/-! PROOFS. What port C can reach (R260, R262). -/

namespace Sys2Proof.Machine

variable {s : State}

/-- On port C an answer adds to the responses of that port, and to nothing else (R90). -/
theorem State.respond_portC (hp : s.port = .C) (code : RespCode) (x : Result) :
    s.respond code x = { s with outC := s.outC ++ [Response.of s.build.cw code x] } := by
  simp [State.respond, hp]

/-- On port C a refusal is recorded in the sticky bits, the LOG and the responses of that port (R13). -/
theorem State.raise_portC (hp : s.port = .C) (e : Raised) :
    s.raise e = { s with
      sticky := s.sticky.set e.code, log := s.log ++ e.event.toList
      outC := s.outC ++ [Response.of s.build.cw e.code .none] } := by
  simp [State.raise, hp]

/-- A command of port C that is carried out writes the pending slot, PULSING or the palette, if anything (R262). -/
theorem State.CarriedOut.portC {i : Instr} {u : State} (h : s.CarriedOut i u) (hc : acceptedOnPortC i = true) :
    ∃ d v k p, u = { s with pend := d, pendValid := v, pulsing := k, pal := p } := by
  cases h
  case nop | advance | setpulse | setpal | rdstat => exact ⟨_, _, _, _, rfl⟩
  all_goals cases hc

/-- Settles O56: a command of port C writes what `CarriedOut.portC` says and its answer, or its refusal. -/
theorem portCReachesOnlyItsState : Obligations.PortCReachesOnlyItsState := by
  intro i s t hp ht
  rcases exec_cases ht with ⟨u, x, hc, -, carried, rfl⟩ | ⟨e, rfl⟩
  · obtain ⟨d, v, k, p, rfl⟩ := carried.portC (hc hp)
    rw [State.respond_portC]
    exact hp
  · rw [State.raise_portC hp]

end Sys2Proof.Machine
end

section
/-! PROOFS. Before INIT nothing reads what reset leaves unspecified (R253, R280). -/

namespace Sys2Proof.Machine

/-- What reset leaves unspecified and not readable: the layout in force, the rings, the packet, `CUR` and `PEND`
(R280). -/
structure UnspecifiedPart where
  nringsL : Nat
  n0L : Nat
  n1L : Nat
  ring0 : Memory Color
  ring1 : Memory Color
  pkt : PacketMemory
  cur : StageData
  pend : StageData

/-- The state with other values where reset gives none. -/
def State.withUnspecified (s : State) (x : UnspecifiedPart) : State :=
  { s with
    nringsL := x.nringsL, n0L := x.n0L, n1L := x.n1L, ring0 := x.ring0, ring1 := x.ring1, pkt := x.pkt
    cur := x.cur, pend := x.pend }

variable {s : State} {i : Instr}

/-- The status word masks the two stages it would read: `CUR` before INIT, and `PEND` while it is not valid (R46). -/
theorem State.statusWord_withUnspecified (hi : s.inited = false) (hv : s.pendValid = false) (x : UnspecifiedPart) :
    (s.withUnspecified x).statusWord = s.statusWord := by
  simp [State.statusWord, State.statusStage, State.statusPendStage, State.withUnspecified, hi, hv]

/-- RDSTAT answers the status word on every port and in every state (R239, R258). -/
theorem exec_rdstat (s : State) : exec .rdstat s = .next (s.respond .ok (.u32 s.statusWord)) :=
  congrArg s.finish (s.permit_always _)

/-- Before INIT every command but an accepted INIT does the same whatever the unspecified part is, and carries it along
unchanged (R253). -/
theorem exec_withUnspecified (hi : s.inited = false) (hv : s.pendValid = false) (hn : i = .init → s.port = .C)
    (x : UnspecifiedPart) :
    ∃ t, exec i s = .next t ∧ exec i (s.withUnspecified x) = .next (t.withUnspecified x) ∧ t.inited = false := by
  by_cases port : s.port = .C → acceptedOnPortC i = true
  case neg =>
    obtain ⟨hp, hc⟩ := Classical.not_imp.mp port
    rw [Bool.not_eq_true] at hc
    exact ⟨_, exec_of_wrong_port hp hc, exec_of_wrong_port (s := s.withUnspecified x) hp hc, hi⟩
  cases early : acceptedBeforeInit i
  case false =>
    exact ⟨_, exec_of_wrong_state port hi early, exec_of_wrong_state (s := s.withUnspecified x) port hi early, hi⟩
  cases i
  case nop => exact ⟨_, exec_nop s, exec_nop (s.withUnspecified x), hi⟩
  case setpal p q f =>
    obtain ⟨-, exec_setpal⟩ := setpalSetsThePalette
    exact ⟨_, exec_setpal s p q f, exec_setpal (s.withUnspecified x) p q f, hi⟩
  case rdstat =>
    refine ⟨_, exec_rdstat s, ?_, hi⟩
    rw [exec_rdstat, State.statusWord_withUnspecified hi hv]
    rfl
  case cfgrd reg =>
    have hp := State.portF_of_accepted port rfl
    rcases cfgRegOf_number_or_none reg with ⟨r, rfl⟩ | hr
    · exact ⟨_, exec_cfgrd_number hp r, exec_cfgrd_number (s := s.withUnspecified x) hp r, hi⟩
    · exact ⟨_, exec_cfgrd_reserved hp hr, exec_cfgrd_reserved (s := s.withUnspecified x) hp hr, hi⟩
  case cfgwr reg v =>
    have hp := State.portF_of_accepted port rfl
    rcases cfgRegOf_number_or_none reg with ⟨r, rfl⟩ | hr
    · have here := exec_cfgwr_writable hp v (r := r) fun _ => hi
      have there := exec_cfgwr_writable (s := s.withUnspecified x) hp v (r := r) fun _ => hi
      by_cases legal : legalValue s.build.nmax v r = true
      · exact ⟨_, here.trans (congrArg _ (if_pos legal)), there.trans (congrArg _ (if_pos legal)), hi⟩
      · exact ⟨_, here.trans (congrArg _ (if_neg legal)), there.trans (congrArg _ (if_neg legal)), hi⟩
    · exact ⟨_, exec_cfgwr_reserved hp v hr, exec_cfgwr_reserved (s := s.withUnspecified x) hp v hr, hi⟩
  case init => cases (hn rfl).symm.trans (State.portF_of_accepted port rfl)
  all_goals cases early

/-- INIT writes all of the unspecified part but `PEND` and a ring that does not exist (R233). -/
theorem State.initialise_withUnspecified (hk : 0 < s.cfg.nrings) (x : UnspecifiedPart) :
    (s.withUnspecified x).initialise = { s.initialise with
      pend := x.pend
      ring1 := if 1 < s.cfg.nrings then s.initialise.ring1 else x.ring1 } := by
  by_cases h1 : 1 < s.cfg.nrings
  all_goals simp [State.initialise, State.withUnspecified, mkStage, hk, h1]

/-- Settles O57: every command but an accepted INIT carries the unspecified part along, unread, and leaves the block not
initialised; an accepted INIT writes it. -/
theorem unspecifiedResetStateIsNotReadable : Obligations.UnspecifiedResetStateIsNotReadable := by
  rintro i s _ hi hv ⟨nr, n0, n1, r0, r1, p, c, d, rfl⟩
  let x : UnspecifiedPart := ⟨nr, n0, n1, r0, r1, p, c, d⟩
  by_cases accepted : i = .init ∧ s.port = .F
  · obtain ⟨rfl, hp⟩ := accepted
    refine ⟨_, _, exec_init hp hi, exec_init (s := s.withUnspecified x) hp hi,
      rfl, rfl, rfl, rfl, rfl, rfl, rfl, rfl, rfl, rfl, fun _ two => ?_, fun _ one => ?_⟩
    · rw [State.initialise_withUnspecified (by omega), if_pos (by omega)]
      rfl
    · rw [State.initialise_withUnspecified (by omega)]
      rfl
  · have other : i = .init → s.port = .C := fun hn => by
      cases hp : s.port
      · exact absurd ⟨hn, hp⟩ accepted
      · rfl
    obtain ⟨t, ht, hu, before⟩ := exec_withUnspecified hi hv other x
    exact ⟨t, t.withUnspecified x, ht, hu, rfl, rfl, rfl, rfl, rfl, rfl, rfl, rfl, rfl, rfl,
      fun after => absurd after (by simp [before]), fun after => absurd after (by simp [before])⟩

end Sys2Proof.Machine
end

section
/-! PROOFS. What reset leaves, and that it is legal (R280, R282). -/

namespace Sys2Proof

/-- The model's own build has legal defaults: one ring of one pixel, and a black palette (R6, R44). -/
theorem Config.build_legal : Config.build.legal := by decide

end Sys2Proof

namespace Sys2Proof.Machine

/-- Without INIT, a pending request, a pulse or a past refusal there is nothing for the status word to show (R46). -/
theorem State.statusWord_eq_zero {s : State} (hi : s.inited = false) (hv : s.pendValid = false)
    (hp : s.pulsing = false) (hs : s.sticky = ⟨false, false, false, false, false⟩) : s.statusWord = 0#32 := by
  have stage : s.statusStage = 0#3 := by simp [State.statusStage, hi]
  have pendStage : s.statusPendStage = 0#3 := by simp [State.statusPendStage, hv]
  simp only [State.statusWord, stage, pendStage, hi, hv, hp, hs]
  decide

/-- While the reset input is asserted the step is the reset event, whatever frames wait (R280, R282). -/
theorem step_of_resetIn {s : State} (hr : s.resetIn = true) : step s = .next s.takeReset := if_pos hr

/-- Settles O9: the values are those of the reset state's fields, from which its status word is zero, and the reset
event is the step. -/
theorem resetLeavesTheResetState : Obligations.ResetLeavesTheResetState :=
  ⟨fun _ => ⟨rfl, rfl, rfl, rfl, rfl, rfl, rfl, State.statusWord_eq_zero rfl rfl rfl rfl⟩,
    fun _ hr => step_of_resetIn hr⟩

/-- Settles O10: the reset state of a legal build is legal, and the model's own build is one. -/
theorem resetStateIsLegal : Obligations.ResetStateIsLegal :=
  ⟨fun _ => State.resetOf_legal, State.resetOf_legal Config.build_legal⟩

end Sys2Proof.Machine
end
